-- ==== Sys2Proof/Word.lean ====
section
/-! DEFINITION. Bytes, words of w = 32 or 64 bits (00_scope rule R7), and the amounts a word may be shifted
or rotated by (R9, R10). -/

namespace Sys2Proof

/-- A byte has 8 bits (R7). -/
abbrev Byte := BitVec 8

/-- The word width of an algorithm (R6, R7). -/
inductive Width where
  | w32 | w64
  deriving DecidableEq, Repr

/-- `w` (R7). -/
@[reducible] def Width.bits : Width → Nat
  | .w32 => 32
  | .w64 => 64

/-- `w / 8` (R13). -/
@[reducible] def Width.bytes : Width → Nat
  | .w32 => 4
  | .w64 => 8

/-- A w-bit word: an unsigned integer modulo `2^w`, no byte order of its own (R7, R54). -/
abbrev Word (w : Width) := BitVec w.bits

/-- A shift or rotate amount: the rules define shifts and rotates for `0 < n < w` only, and the amounts 0 and w
are refused (R9, R10, 93 U14): here no such amount can be written down. -/
abbrev Amount (w : Nat) := { n : Nat // 0 < n ∧ n < w }

/-- The amount `n`, with the proof that it lies in `1 .. w-1`. -/
def amount {w : Nat} (n : Nat) (h : 0 < n ∧ n < w := by decide) : Amount w := ⟨n, h⟩

/-- The amount `w - n`, the other half of a rotate by `n` (R10). -/
def Amount.rest {w : Nat} (n : Amount w) : Amount w := ⟨w - n.val, by have := n.property; omega⟩

end Sys2Proof
end

