-- ==== Sys2Proof/Syntax.lean ====
section
/-! DEFINITION. The syntax of the core's operations (30_encoding rules R70 to R76): the six algorithms,
the four lane counts, the eleven operations, and one constructor of `Instr` for each of the 66 rows of
spec/opcode_table.json. -/

namespace Sys2Proof

/-- The `ALG` field (R72): the six algorithms of R1. -/
inductive Alg where
  | md5 | sha1 | sha224 | sha256 | sha384 | sha512
  deriving DecidableEq, Repr

/-- The four compression families (R1, R19): one engine each. -/
inductive Family where
  | md5 | sha1 | sha2x32 | sha2x64
  deriving DecidableEq, Repr

/-- `ORDER(ALG)` (R53): the byte order of block words, length field and digest. -/
inductive ByteOrder where
  | big | little
  deriving DecidableEq, Repr

/-- The `KSEL` field (R73): the lane count K of the call, 1, 2, 4 or 8. -/
inductive LaneCount where
  | k1 | k2 | k4 | k8
  deriving DecidableEq, Repr

/-- The `LANE` field (R74): a lane index 0 .. 7. -/
abbrev Lane := Fin 8

/-- The `OP` field (R71): two host commands and nine micro-operations. -/
inductive Op where
  | hash | hashpar | inits | initl | prep | sched | comp | pack | compl | snap | final
  deriving DecidableEq, Repr

/-- One constructor per row of the opcode table (R82): the operation and the algorithm are in the name;
the operands are the `KSEL` and `LANE` fields where R76 leaves them free. -/
inductive Instr where
  -- HASH (R173)
  | hashMd5
  | hashSha1
  | hashSha224
  | hashSha256
  | hashSha384
  | hashSha512
  -- HASHPAR (R174)
  | hashparMd5 (k : LaneCount)
  | hashparSha1 (k : LaneCount)
  | hashparSha224 (k : LaneCount)
  | hashparSha256 (k : LaneCount)
  | hashparSha384 (k : LaneCount)
  | hashparSha512 (k : LaneCount)
  -- INITS (R130)
  | initsMd5 (k : LaneCount) (i : Lane)
  | initsSha1 (k : LaneCount) (i : Lane)
  | initsSha224 (k : LaneCount) (i : Lane)
  | initsSha256 (k : LaneCount) (i : Lane)
  | initsSha384 (k : LaneCount) (i : Lane)
  | initsSha512 (k : LaneCount) (i : Lane)
  -- INITL (R150)
  | initlMd5 (k : LaneCount)
  | initlSha1 (k : LaneCount)
  | initlSha224 (k : LaneCount)
  | initlSha256 (k : LaneCount)
  | initlSha384 (k : LaneCount)
  | initlSha512 (k : LaneCount)
  -- PREP (R90)
  | prepMd5 (k : LaneCount) (i : Lane)
  | prepSha1 (k : LaneCount) (i : Lane)
  | prepSha224 (k : LaneCount) (i : Lane)
  | prepSha256 (k : LaneCount) (i : Lane)
  | prepSha384 (k : LaneCount) (i : Lane)
  | prepSha512 (k : LaneCount) (i : Lane)
  -- SCHED (R131)
  | schedMd5 (k : LaneCount) (i : Lane)
  | schedSha1 (k : LaneCount) (i : Lane)
  | schedSha224 (k : LaneCount) (i : Lane)
  | schedSha256 (k : LaneCount) (i : Lane)
  | schedSha384 (k : LaneCount) (i : Lane)
  | schedSha512 (k : LaneCount) (i : Lane)
  -- COMP (R136)
  | compMd5 (k : LaneCount) (i : Lane)
  | compSha1 (k : LaneCount) (i : Lane)
  | compSha224 (k : LaneCount) (i : Lane)
  | compSha256 (k : LaneCount) (i : Lane)
  | compSha384 (k : LaneCount) (i : Lane)
  | compSha512 (k : LaneCount) (i : Lane)
  -- PACK (R151)
  | packMd5 (k : LaneCount)
  | packSha1 (k : LaneCount)
  | packSha224 (k : LaneCount)
  | packSha256 (k : LaneCount)
  | packSha384 (k : LaneCount)
  | packSha512 (k : LaneCount)
  -- COMPL (R154)
  | complMd5 (k : LaneCount)
  | complSha1 (k : LaneCount)
  | complSha224 (k : LaneCount)
  | complSha256 (k : LaneCount)
  | complSha384 (k : LaneCount)
  | complSha512 (k : LaneCount)
  -- SNAP (R156)
  | snapMd5 (k : LaneCount) (i : Lane)
  | snapSha1 (k : LaneCount) (i : Lane)
  | snapSha224 (k : LaneCount) (i : Lane)
  | snapSha256 (k : LaneCount) (i : Lane)
  | snapSha384 (k : LaneCount) (i : Lane)
  | snapSha512 (k : LaneCount) (i : Lane)
  -- FINAL (R195)
  | finalMd5 (k : LaneCount) (i : Lane)
  | finalSha1 (k : LaneCount) (i : Lane)
  | finalSha224 (k : LaneCount) (i : Lane)
  | finalSha256 (k : LaneCount) (i : Lane)
  | finalSha384 (k : LaneCount) (i : Lane)
  | finalSha512 (k : LaneCount) (i : Lane)
  deriving DecidableEq, Repr

end Sys2Proof
end

