-- ==== Sys2Proof/Machine/AlgSpec.lean ====
section
/-! DEFINITION. The six AlgorithmSpecs: dimensions, byte order and initial vector (41_algorithm_specs rule
R105; 20_memory rule R53; 40_block_framer rule R92). -/

namespace Sys2Proof

/-- The compression engine an algorithm uses (R1, R105). -/
@[reducible] def Alg.family : Alg → Family
  | .md5 => .md5
  | .sha1 => .sha1
  | .sha224 | .sha256 => .sha2x32
  | .sha384 | .sha512 => .sha2x64

/-- The word width of a family (R105, column `w`). -/
@[reducible] def Family.width : Family → Width
  | .md5 | .sha1 | .sha2x32 => .w32
  | .sha2x64 => .w64

/-- `w` (R105). -/
@[reducible] def Alg.width (a : Alg) : Width := a.family.width

/-- `B`, the block size in bytes (R105). -/
def Alg.blockBytes : Alg → Nat
  | .md5 | .sha1 | .sha224 | .sha256 => 64
  | .sha384 | .sha512 => 128

/-- `S`, the schedule length of a family, which is also its number of steps (R105). -/
def Family.steps : Family → Nat
  | .md5 => 64
  | .sha1 => 80
  | .sha2x32 => 64
  | .sha2x64 => 80

/-- `NW`, the state words of a family (R105). -/
def Family.stateWords : Family → Nat
  | .md5 => 4
  | .sha1 => 5
  | .sha2x32 | .sha2x64 => 8

/-- `S` (R105). -/
def Alg.steps (a : Alg) : Nat := a.family.steps

/-- `NW` (R105). -/
def Alg.stateWords (a : Alg) : Nat := a.family.stateWords

/-- `ND`, the digest words (R105). -/
def Alg.digestWords : Alg → Nat
  | .md5 => 4
  | .sha1 => 5
  | .sha224 => 7
  | .sha256 => 8
  | .sha384 => 6
  | .sha512 => 8

/-- `LF`, the room the length field needs (R92). -/
def Alg.lengthRoom : Alg → Nat
  | .md5 | .sha1 | .sha224 | .sha256 => 8
  | .sha384 | .sha512 => 16

/-- `ORDER(ALG)` (R53). -/
def Alg.order : Alg → ByteOrder
  | .md5 => .little
  | .sha1 | .sha224 | .sha256 | .sha384 | .sha512 => .big

/-- `ND * w / 8`, the digest length in bytes (R105, R196). -/
def Alg.digestBytes (a : Alg) : Nat := a.digestWords * a.width.bytes

/-- `IV(ALG)` (R105): per algorithm, not per family. -/
def Alg.iv : (a : Alg) → List (Word a.width)
  | .md5 => ivMd5
  | .sha1 => ivSha1
  | .sha224 => ivSha224
  | .sha256 => ivSha256
  | .sha384 => ivSha384
  | .sha512 => ivSha512

/-- `MAXLEN`, the longest message in bytes (R5, R205). -/
def maxLen : Nat := 2 ^ 61 - 1

end Sys2Proof
end

