-- ==== Sys2Proof/Machine/Operands.lean ====
section
/-! DEFINITION. Operand forms (30_encoding rules R74 to R78): the fields of an operation, which lane counts
and lane operands are legal for it, and the lanes a call uses. The core has no register operands (R36). -/

namespace Sys2Proof

/-- The fields of a command word but `ZERO` (R70). -/
structure Fields where
  op : Op
  alg : Alg
  k : LaneCount
  lane : Lane
  deriving DecidableEq, Repr

/-- The fields each constructor stands for; an operand the form does not have is 0 (R76). -/
def Instr.fields : Instr → Fields
  | .hashMd5 => ⟨.hash, .md5, .k1, 0⟩
  | .hashSha1 => ⟨.hash, .sha1, .k1, 0⟩
  | .hashSha224 => ⟨.hash, .sha224, .k1, 0⟩
  | .hashSha256 => ⟨.hash, .sha256, .k1, 0⟩
  | .hashSha384 => ⟨.hash, .sha384, .k1, 0⟩
  | .hashSha512 => ⟨.hash, .sha512, .k1, 0⟩
  | .hashparMd5 k => ⟨.hashpar, .md5, k, 0⟩
  | .hashparSha1 k => ⟨.hashpar, .sha1, k, 0⟩
  | .hashparSha224 k => ⟨.hashpar, .sha224, k, 0⟩
  | .hashparSha256 k => ⟨.hashpar, .sha256, k, 0⟩
  | .hashparSha384 k => ⟨.hashpar, .sha384, k, 0⟩
  | .hashparSha512 k => ⟨.hashpar, .sha512, k, 0⟩
  | .initsMd5 k i => ⟨.inits, .md5, k, i⟩
  | .initsSha1 k i => ⟨.inits, .sha1, k, i⟩
  | .initsSha224 k i => ⟨.inits, .sha224, k, i⟩
  | .initsSha256 k i => ⟨.inits, .sha256, k, i⟩
  | .initsSha384 k i => ⟨.inits, .sha384, k, i⟩
  | .initsSha512 k i => ⟨.inits, .sha512, k, i⟩
  | .initlMd5 k => ⟨.initl, .md5, k, 0⟩
  | .initlSha1 k => ⟨.initl, .sha1, k, 0⟩
  | .initlSha224 k => ⟨.initl, .sha224, k, 0⟩
  | .initlSha256 k => ⟨.initl, .sha256, k, 0⟩
  | .initlSha384 k => ⟨.initl, .sha384, k, 0⟩
  | .initlSha512 k => ⟨.initl, .sha512, k, 0⟩
  | .prepMd5 k i => ⟨.prep, .md5, k, i⟩
  | .prepSha1 k i => ⟨.prep, .sha1, k, i⟩
  | .prepSha224 k i => ⟨.prep, .sha224, k, i⟩
  | .prepSha256 k i => ⟨.prep, .sha256, k, i⟩
  | .prepSha384 k i => ⟨.prep, .sha384, k, i⟩
  | .prepSha512 k i => ⟨.prep, .sha512, k, i⟩
  | .schedMd5 k i => ⟨.sched, .md5, k, i⟩
  | .schedSha1 k i => ⟨.sched, .sha1, k, i⟩
  | .schedSha224 k i => ⟨.sched, .sha224, k, i⟩
  | .schedSha256 k i => ⟨.sched, .sha256, k, i⟩
  | .schedSha384 k i => ⟨.sched, .sha384, k, i⟩
  | .schedSha512 k i => ⟨.sched, .sha512, k, i⟩
  | .compMd5 k i => ⟨.comp, .md5, k, i⟩
  | .compSha1 k i => ⟨.comp, .sha1, k, i⟩
  | .compSha224 k i => ⟨.comp, .sha224, k, i⟩
  | .compSha256 k i => ⟨.comp, .sha256, k, i⟩
  | .compSha384 k i => ⟨.comp, .sha384, k, i⟩
  | .compSha512 k i => ⟨.comp, .sha512, k, i⟩
  | .packMd5 k => ⟨.pack, .md5, k, 0⟩
  | .packSha1 k => ⟨.pack, .sha1, k, 0⟩
  | .packSha224 k => ⟨.pack, .sha224, k, 0⟩
  | .packSha256 k => ⟨.pack, .sha256, k, 0⟩
  | .packSha384 k => ⟨.pack, .sha384, k, 0⟩
  | .packSha512 k => ⟨.pack, .sha512, k, 0⟩
  | .complMd5 k => ⟨.compl, .md5, k, 0⟩
  | .complSha1 k => ⟨.compl, .sha1, k, 0⟩
  | .complSha224 k => ⟨.compl, .sha224, k, 0⟩
  | .complSha256 k => ⟨.compl, .sha256, k, 0⟩
  | .complSha384 k => ⟨.compl, .sha384, k, 0⟩
  | .complSha512 k => ⟨.compl, .sha512, k, 0⟩
  | .snapMd5 k i => ⟨.snap, .md5, k, i⟩
  | .snapSha1 k i => ⟨.snap, .sha1, k, i⟩
  | .snapSha224 k i => ⟨.snap, .sha224, k, i⟩
  | .snapSha256 k i => ⟨.snap, .sha256, k, i⟩
  | .snapSha384 k i => ⟨.snap, .sha384, k, i⟩
  | .snapSha512 k i => ⟨.snap, .sha512, k, i⟩
  | .finalMd5 k i => ⟨.final, .md5, k, i⟩
  | .finalSha1 k i => ⟨.final, .sha1, k, i⟩
  | .finalSha224 k i => ⟨.final, .sha224, k, i⟩
  | .finalSha256 k i => ⟨.final, .sha256, k, i⟩
  | .finalSha384 k i => ⟨.final, .sha384, k, i⟩
  | .finalSha512 k i => ⟨.final, .sha512, k, i⟩

/-- The instruction of an operation and an algorithm with the given lane count and lane operand; an operand
the form does not have is dropped (R76). -/
def Instr.ofFields : Op → Alg → LaneCount → Lane → Instr
  | .hash, .md5, _, _ => .hashMd5
  | .hash, .sha1, _, _ => .hashSha1
  | .hash, .sha224, _, _ => .hashSha224
  | .hash, .sha256, _, _ => .hashSha256
  | .hash, .sha384, _, _ => .hashSha384
  | .hash, .sha512, _, _ => .hashSha512
  | .hashpar, .md5, k, _ => .hashparMd5 k
  | .hashpar, .sha1, k, _ => .hashparSha1 k
  | .hashpar, .sha224, k, _ => .hashparSha224 k
  | .hashpar, .sha256, k, _ => .hashparSha256 k
  | .hashpar, .sha384, k, _ => .hashparSha384 k
  | .hashpar, .sha512, k, _ => .hashparSha512 k
  | .inits, .md5, k, i => .initsMd5 k i
  | .inits, .sha1, k, i => .initsSha1 k i
  | .inits, .sha224, k, i => .initsSha224 k i
  | .inits, .sha256, k, i => .initsSha256 k i
  | .inits, .sha384, k, i => .initsSha384 k i
  | .inits, .sha512, k, i => .initsSha512 k i
  | .initl, .md5, k, _ => .initlMd5 k
  | .initl, .sha1, k, _ => .initlSha1 k
  | .initl, .sha224, k, _ => .initlSha224 k
  | .initl, .sha256, k, _ => .initlSha256 k
  | .initl, .sha384, k, _ => .initlSha384 k
  | .initl, .sha512, k, _ => .initlSha512 k
  | .prep, .md5, k, i => .prepMd5 k i
  | .prep, .sha1, k, i => .prepSha1 k i
  | .prep, .sha224, k, i => .prepSha224 k i
  | .prep, .sha256, k, i => .prepSha256 k i
  | .prep, .sha384, k, i => .prepSha384 k i
  | .prep, .sha512, k, i => .prepSha512 k i
  | .sched, .md5, k, i => .schedMd5 k i
  | .sched, .sha1, k, i => .schedSha1 k i
  | .sched, .sha224, k, i => .schedSha224 k i
  | .sched, .sha256, k, i => .schedSha256 k i
  | .sched, .sha384, k, i => .schedSha384 k i
  | .sched, .sha512, k, i => .schedSha512 k i
  | .comp, .md5, k, i => .compMd5 k i
  | .comp, .sha1, k, i => .compSha1 k i
  | .comp, .sha224, k, i => .compSha224 k i
  | .comp, .sha256, k, i => .compSha256 k i
  | .comp, .sha384, k, i => .compSha384 k i
  | .comp, .sha512, k, i => .compSha512 k i
  | .pack, .md5, k, _ => .packMd5 k
  | .pack, .sha1, k, _ => .packSha1 k
  | .pack, .sha224, k, _ => .packSha224 k
  | .pack, .sha256, k, _ => .packSha256 k
  | .pack, .sha384, k, _ => .packSha384 k
  | .pack, .sha512, k, _ => .packSha512 k
  | .compl, .md5, k, _ => .complMd5 k
  | .compl, .sha1, k, _ => .complSha1 k
  | .compl, .sha224, k, _ => .complSha224 k
  | .compl, .sha256, k, _ => .complSha256 k
  | .compl, .sha384, k, _ => .complSha384 k
  | .compl, .sha512, k, _ => .complSha512 k
  | .snap, .md5, k, i => .snapMd5 k i
  | .snap, .sha1, k, i => .snapSha1 k i
  | .snap, .sha224, k, i => .snapSha224 k i
  | .snap, .sha256, k, i => .snapSha256 k i
  | .snap, .sha384, k, i => .snapSha384 k i
  | .snap, .sha512, k, i => .snapSha512 k i
  | .final, .md5, k, i => .finalMd5 k i
  | .final, .sha1, k, i => .finalSha1 k i
  | .final, .sha224, k, i => .finalSha224 k i
  | .final, .sha256, k, i => .finalSha256 k i
  | .final, .sha384, k, i => .finalSha384 k i
  | .final, .sha512, k, i => .finalSha512 k i

/-- `HASH` and `HASHPAR` are the host's commands; the other nine are the sequencer's (R78). -/
def Op.isCommand : Op → Bool
  | .hash | .hashpar => true
  | .inits | .initl | .prep | .sched | .comp | .pack | .compl | .snap | .final => false

/-- The host may write this operation's words to `CMD` (R78). -/
def Instr.isCommand (i : Instr) : Bool := i.fields.op.isCommand

/-- K as a number (R73). -/
def LaneCount.lanes : LaneCount → Nat
  | .k1 => 1
  | .k2 => 2
  | .k4 => 4
  | .k8 => 8

/-- The lanes `0 .. K-1` a call uses, ascending (R20). -/
def LaneCount.laneList : LaneCount → List Lane
  | .k1 => [0]
  | .k2 => [0, 1]
  | .k4 => [0, 1, 2, 3]
  | .k8 => [0, 1, 2, 3, 4, 5, 6, 7]

/-- The bits of one vector register, `K * w` (R34, R77). -/
def vectorBits (a : Alg) (k : LaneCount) : Nat := k.lanes * a.width.bits

/-- The legal lane counts of the lane path: exactly those whose vector has 128 or 256 bits (R77). -/
def laneCountLegal (a : Alg) (k : LaneCount) : Bool :=
  vectorBits a k == 128 || vectorBits a k == 256

/-- The `KSEL` column of R76. -/
def laneCountOk (op : Op) (a : Alg) (k : LaneCount) : Bool :=
  match op with
  | .hash => k == .k1
  | .hashpar | .initl | .pack | .compl | .snap => laneCountLegal a k
  | .inits | .prep | .sched | .comp | .final => k == .k1 || laneCountLegal a k

/-- The `LANE` column of R76. -/
def laneOk (op : Op) (k : LaneCount) (i : Lane) : Bool :=
  match op with
  | .hash | .hashpar | .initl | .pack | .compl => i == 0
  | .inits | .prep | .sched | .comp | .snap | .final => decide (i.val < k.lanes)

/-- A row of R76 is kept. -/
def formOk (op : Op) (a : Alg) (k : LaneCount) (i : Lane) : Bool :=
  laneCountOk op a k && laneOk op k i

/-- Lane number `n` of a call with lane count `k`, when `n < K` (the guards `i < K` of R184). -/
def laneAt (k : LaneCount) (n : Nat) : Option Lane :=
  if h : n < 8 then if n < k.lanes then some ⟨n, h⟩ else none else none

/-- The pseudo-operation `HASHN n` (R84 (b)): the least legal K of the lane path with `n <= K`, if any. -/
def hashNLanes (a : Alg) (n : Nat) : Option LaneCount :=
  [LaneCount.k2, .k4, .k8].find? fun k => laneCountLegal a k && decide (n ≤ k.lanes)

end Sys2Proof
end

