-- ==== Sys2Proof/WellFormed.lean ====
section
/-! DEFINITION. The well-formed instructions: those that keep their row of 30_encoding rule R76. -/

namespace Sys2Proof

/-- The instruction's lane count and lane operand are legal for it (R76, R77). -/
def Instr.wf (i : Instr) : Bool := formOk i.fields.op i.fields.alg i.fields.k i.fields.lane

end Sys2Proof
end

