-- ==== Sys2Proof/Decode.lean ====
section
/-! DEFINITION. The decoder of command words, total on 16-bit words and refusing by name (30_encoding rules
R70 to R82), and the encoder, written from the same tables. -/

namespace Sys2Proof

/-- Why a word is no operation's (R76, R79). -/
inductive Illegal where
  /-- `ZERO != 0` (R75). -/
  | zeroField
  /-- `OP` is 0 or 12 .. 15 (R71). -/
  | reservedOp
  /-- `ALG` is 6 or 7 (R72). -/
  | reservedAlg
  /-- `KSEL` is not legal for the operation and the algorithm (R76, R77). -/
  | laneCount
  /-- `LANE` is not legal for the operation (R74, R76). -/
  | laneOperand
  deriving DecidableEq, Repr

/-- `OP`, bits 3:0 (R70). -/
def opField (w : BitVec 16) : BitVec 4 := w.extractLsb' 0 4

/-- `ALG`, bits 6:4 (R70). -/
def algField (w : BitVec 16) : BitVec 3 := w.extractLsb' 4 3

/-- `KSEL`, bits 8:7 (R70). -/
def kselField (w : BitVec 16) : BitVec 2 := w.extractLsb' 7 2

/-- `LANE`, bits 11:9 (R70). -/
def laneField (w : BitVec 16) : BitVec 3 := w.extractLsb' 9 3

/-- `ZERO`, bits 15:12 (R70). -/
def zeroField (w : BitVec 16) : BitVec 4 := w.extractLsb' 12 4

/-- The operation of an `OP` value (R71). -/
def opOfField (b : BitVec 4) : Option Op :=
  match b.toNat with
  | 1 => some .hash
  | 2 => some .hashpar
  | 3 => some .inits
  | 4 => some .initl
  | 5 => some .prep
  | 6 => some .sched
  | 7 => some .comp
  | 8 => some .pack
  | 9 => some .compl
  | 10 => some .snap
  | 11 => some .final
  | _ => none

/-- The algorithm of an `ALG` value (R72). -/
def algOfField (b : BitVec 3) : Option Alg :=
  match b.toNat with
  | 0 => some .md5
  | 1 => some .sha1
  | 2 => some .sha224
  | 3 => some .sha256
  | 4 => some .sha384
  | 5 => some .sha512
  | _ => none

/-- The lane count of a `KSEL` value (R73). -/
def laneCountOfField (b : BitVec 2) : LaneCount :=
  match b.toNat with
  | 0 => .k1
  | 1 => .k2
  | 2 => .k4
  | _ => .k8

/-- The lane of a `LANE` value (R74). -/
def laneOfField (b : BitVec 3) : Lane := ⟨b.toNat, b.isLt⟩

/-- The decoder (R76, R79, R80): every word is a legal operation's or refused by name. Whether the host may
write the operation's word is `Instr.isCommand` (R78). -/
def decode (w : BitVec 16) : Except Illegal Instr :=
  if zeroField w ≠ 0 then .error .zeroField
  else
    match opOfField (opField w), algOfField (algField w) with
    | none, _ => .error .reservedOp
    | some _, none => .error .reservedAlg
    | some op, some a =>
      if laneCountOk op a (laneCountOfField (kselField w)) then
        if laneOk op (laneCountOfField (kselField w)) (laneOfField (laneField w)) then
          .ok (Instr.ofFields op a (laneCountOfField (kselField w)) (laneOfField (laneField w)))
        else .error .laneOperand
      else .error .laneCount

/-- The `OP` code (R71). -/
def Op.code : Op → BitVec 4
  | .hash => 1
  | .hashpar => 2
  | .inits => 3
  | .initl => 4
  | .prep => 5
  | .sched => 6
  | .comp => 7
  | .pack => 8
  | .compl => 9
  | .snap => 10
  | .final => 11

/-- The `ALG` code (R72). -/
def Alg.code : Alg → BitVec 3
  | .md5 => 0
  | .sha1 => 1
  | .sha224 => 2
  | .sha256 => 3
  | .sha384 => 4
  | .sha512 => 5

/-- The `KSEL` code (R73). -/
def LaneCount.code : LaneCount → BitVec 2
  | .k1 => 0
  | .k2 => 1
  | .k4 => 2
  | .k8 => 3

/-- `(LANE << 9) OR (KSEL << 7) OR (ALG << 4) OR OP` (R70). -/
def wordOfFields (op : Op) (a : Alg) (k : LaneCount) (i : Lane) : BitVec 16 :=
  (BitVec.ofNat 16 i.val <<< 9) ||| (k.code.setWidth 16 <<< 7) ||| (a.code.setWidth 16 <<< 4)
    ||| op.code.setWidth 16

/-- The encoder (R70). -/
def encode (i : Instr) : BitVec 16 :=
  wordOfFields i.fields.op i.fields.alg i.fields.k i.fields.lane

/-- What the decoder reads from an opcode-table row's word of `nbits` bits; the core's words have 16 bits, and
a value that does not fit them is no word. -/
def decodeTableWord (nbits w : Nat) : Option Instr :=
  if w % 2 ^ nbits < 2 ^ 16 then (decode (BitVec.ofNat 16 (w % 2 ^ nbits))).toOption else none

end Sys2Proof
end

