-- ==== Sys2Proof/Machine/Bytes.lean ====
section
/-! DEFINITION. Word and byte conversion (20_memory rule R52) in the byte order of an algorithm (R53). -/

namespace Sys2Proof

/-- The number whose big-endian byte string is `bs`: the sum of R52. -/
def beNat (bs : List Byte) : Nat := bs.foldl (fun n b => n * 256 + b.toNat) 0

/-- The number whose little-endian byte string is `bs` (R52). -/
def leNat (bs : List Byte) : Nat := bs.foldr (fun b n => b.toNat + n * 256) 0

/-- `be_w` or `le_w` (R52). -/
def wordOfBytes (o : ByteOrder) (w : Nat) (bs : List Byte) : BitVec w :=
  match o with
  | .big => BitVec.ofNat w (beNat bs)
  | .little => BitVec.ofNat w (leNat bs)

/-- Byte number `p` of a word, counted from the least significant: `(x >> 8p) AND 0xFF` (R52). -/
def byteOfWord {w : Nat} (x : BitVec w) (p : Nat) : Byte := x.extractLsb' (8 * p) 8

/-- `bytes_be_w` or `bytes_le_w` for a word of `n` bytes (R52). -/
def bytesOfWord (o : ByteOrder) (n : Nat) {w : Nat} (x : BitVec w) : List Byte :=
  match o with
  | .big => (List.range n).map fun p => byteOfWord x (n - 1 - p)
  | .little => (List.range n).map fun p => byteOfWord x p

/-- Word `t` of a block: bytes `t * w/8 .. (t+1) * w/8` in the algorithm's order (R55, R131). -/
def blockWord (o : ByteOrder) (w : Width) (blk : List Byte) (t : Nat) : Word w :=
  wordOfBytes o w.bits ((blk.drop (t * w.bytes)).take w.bytes)

/-- The 16 words of a block (R131). -/
def blockWords (o : ByteOrder) (w : Width) (blk : List Byte) : List (Word w) :=
  (List.range 16).map (blockWord o w blk)

end Sys2Proof
end

