-- ==== Sys2Proof/Config.lean ====
section
/-! DEFINITION. The implementation parameters of one core instance (00_scope rule R5). The spec leaves them
OPEN, so they stand in `State.params`, which no step changes, and every statement about all states holds for
all their values; `Config.params` is only what the constant `State.reset` is built with (log entry 2). -/

namespace Sys2Proof

/-- The parameters of R5 that the spec leaves OPEN. `KMAX` and `MAXLEN` are fixed. -/
structure Params where
  /-- `CAP128`: the oracle's answer `hasWideVector128`. -/
  cap128 : Bool
  /-- `CAP256`: the oracle's answer `hasWideVector256`; no relation to `CAP128` is assumed. -/
  cap256 : Bool
  /-- `HOST_LE`: the host is little-endian; it gates the PLATFORM error only (R54, R203). -/
  hostLe : Bool
  /-- `THRESH(2)`. -/
  thresh2 : Nat
  /-- `THRESH(4)`. -/
  thresh4 : Nat
  /-- `THRESH(8)`. -/
  thresh8 : Nat
  deriving DecidableEq, Repr

/-- DESIGN CHOICE, unsafe (log entry 2): the parameters `State.reset` is built with, those of the programs of
95_test_vectors section 6 (`CAP = 0x0007`), and the default `THRESH` of R5. -/
def Config.params : Params where
  cap128 := true
  cap256 := true
  hostLe := true
  thresh2 := 1
  thresh4 := 2
  thresh8 := 2

end Sys2Proof
end

