-- ==== Sys2Proof/Machine/State.lean ====
section
/-! DEFINITION. The state of one core instance (10_state rule R20) with the host's side of the interface
(R40), the reasons a step stops, and the state after reset (R45, R220). `none` is the spec's own "no value"
(R13, R44): what it marks has not been written since reset, or since the start of the command that uses it, or has been
invalidated (R171, R207); a read of it is a fault of the model (log entries 1 and 19). -/

namespace Sys2Proof.Machine

/-- One element per lane 0 .. 7 (R20). -/
abbrev PerLane (α : Type) := Vector α 8

/-- A byte space: cells in strictly rising address order, none holding what an unlisted address reads as. -/
abbrev Memory := List Host.Cell

/-- `SC[i].PH` (R24): three values; the fourth code never occurs. -/
inductive StreamPhase where
  | active | markerWritten | done
  deriving DecidableEq, Repr

/-- The StreamContext of one stream (R24). -/
structure StreamContext where
  /-- `LEN`, the source length in bytes. -/
  len : BitVec 64
  /-- `BITLEN = 8 * LEN`. -/
  bitLen : BitVec 64
  /-- `CUR`, the bytes of the source consumed so far. -/
  cur : BitVec 64
  /-- `PH`. -/
  ph : StreamPhase
  deriving DecidableEq, Repr

/-- The latched command (R23). -/
structure CommandContext where
  alg : Alg
  k : LaneCount
  deriving DecidableEq, Repr

/-- The phase names of the sequencer (R182). -/
inductive SeqPhase where
  | idle
  | sInit | sTest | sSched | sComp | sFinal
  | pInit | pPrep | pPack | pCompl | pSnap | pTest
  | dNext | dTest | dSched | dComp
  | fFinal
  | done | failed
  deriving DecidableEq, Repr

/-- `SEQ`: the control position, a phase and a lane index 0 .. 8 (R22); in a phase that carries no lane the model holds 0
(DESIGN CHOICE, log entry 24). -/
structure Seq where
  phase : SeqPhase
  lane : Nat
  deriving DecidableEq, Repr

/-- An array of words of one of the two widths: `W` and `DIG[i]` (R30, R35). -/
inductive WordArray where
  | w32 (ws : List (BitVec 32))
  | w64 (ws : List (BitVec 64))
  deriving DecidableEq, Repr

/-- An array of K-lane vectors of words of one of the two widths: `LW` and `LS` (R32, R33); `vs[k][j]` is
lane `j` of vector `k`. -/
inductive VectorArray where
  | w32 (vs : List (List (BitVec 32)))
  | w64 (vs : List (List (BitVec 64)))
  deriving DecidableEq, Repr

/-- What the host does between commands (R228), and the reset input (R220); one move a step (log entry 4). -/
inductive HostMove where
  /-- Write a host register (R40): register 0 is `CMD`, `0x10 + i` is `SRC_DESC[i]`. -/
  | writeReg (n : Nat) (v : BitVec 64)
  /-- Read a host register (R40). -/
  | readReg (n : Nat)
  /-- Change one byte of `SRC[i]` (R228). -/
  | writeSource (i : Lane) (offset : Nat) (b : Byte)
  /-- Read one byte of `OUT[i]` (R37, R230). -/
  | readOut (i : Lane) (offset : Nat)
  /-- Apply reset (R220). -/
  | reset
  /-- No host move: the core takes its step. -/
  | pass
  /-- The host waits until no command is running (R210, R231). -/
  | await
  deriving DecidableEq, Repr

/-- The elements of R20 and R40 that can have no value. -/
inductive Element where
  | ctx
  | streamContext (i : Lane)
  | newDone (i : Lane)
  | block (i : Lane)
  | schedule
  | laneSchedule
  | laneState
  | digestWords (i : Lane)
  | out (i : Lane)
  | outLen
  | sourceDescriptor (i : Lane)
  | cmd
  deriving DecidableEq, Repr

/-- Why the model stops where the spec makes a read or a step an error of the model itself. -/
inductive Fault where
  /-- A read of an element that has no value (R13, R44, R229, 92 D13, 93 U10, each of which makes it a fault): raised by
  every operation and host read that reads one; safe. -/
  | noValue (e : Element)
  /-- `PREP` or the host reaches an offset of `SRC[i]` beyond its 61-bit offsets (R50): no such byte exists; safe. -/
  | sourceOffset (i : Lane)
  /-- The sequencer stands at a lane index its phase's rows do not cover (R183, R184): raised by the sequencer
  in states no run reaches; safe. -/
  | noSequencerRow
  deriving DecidableEq, Repr

/-- Why the model has no such move. -/
inductive Refusal where
  /-- An instruction without a meaning: raised by no arm of `exec` in this model; safe. -/
  | notModelled (mnemonic : String)
  /-- `CMD` written while `STATE = BUSY` (R227, 93 U11): raised by `HASH`, `HASHPAR` and the host's write; safe. -/
  | commandWhileBusy
  /-- Any other host move but a read of `STATUS`, `OUTLEN` or `OUT` while `STATE = BUSY` (R226, R228, 93 U12; a read of
  `OUTLEN` or `OUT` is then the fault `noValue`, R229): raised by the host port; unsafe for a host that breaks its duty,
  as R65 records. -/
  | hostWhileBusy
  /-- A command whose accept would read a descriptor the host has not written (R45, R225, 93 U13, each of which makes it a
  refusal): raised by `HASH` and `HASHPAR`; safe. -/
  | descriptorUnwritten (i : Lane)
  /-- A micro-operation word, or term, that breaks R76 (R81): raised by the micro-operations and at the issue
  point; safe. -/
  | illegalMicroOperation
  /-- A host command's word at the sequencer's issue point, which issues micro-operations only (R78); safe. -/
  | commandAtIssue
  /-- A host access to a register number that does not exist (R40): raised by the host port; safe. -/
  | noSuchRegister (n : Nat)
  /-- A host write to the read-only `STATUS` or `OUTLEN` (R21, R37), for which no effect is given; safe. -/
  | readOnlyRegister (n : Nat)
  deriving DecidableEq, Repr

/-- The state of one core instance and of the host's side of its interface. -/
structure State where
  /-- The parameters (R5) behind the hardwired `CAP` (R38); no step changes them. -/
  params : Params
  /-- `STATUS` (R21). -/
  status : BitVec 16
  /-- `SEQ` (R22). -/
  seq : Seq
  /-- `CTX` (R23). -/
  ctx : Option CommandContext
  /-- `SC[i]` (R24). -/
  sc : PerLane (Option StreamContext)
  /-- `NEWDONE[i]` (R27). -/
  newDone : PerLane (Option Bool)
  /-- `BLK[i]` (R29). -/
  blk : PerLane (Option (List Byte))
  /-- `W` (R30). -/
  w : Option WordArray
  /-- `LW` (R32). -/
  lw : Option VectorArray
  /-- `LS` (R33). -/
  ls : Option VectorArray
  /-- `DIG[i]` (R35). -/
  dig : PerLane (Option WordArray)
  /-- `OUT[i]` (R37): the bytes that hold a value, from offset 0. -/
  out : PerLane (Option (List Byte))
  /-- `OUTLEN` (R37). -/
  outLen : Option (BitVec 8)
  /-- `SRC_DESC[i]` (R39). -/
  srcDesc : PerLane (Option (BitVec 64))
  /-- `CMD`, the last word written (R40). -/
  cmd : Option (BitVec 16)
  /-- `SRC[i]` for every lane (R50), host-owned: offset `p` of lane `i` is address `i * 2^61 + p`. -/
  src : Memory
  /-- The MODEL's own: the host's moves to come, next first (log entry 4). -/
  host : List HostMove
  /-- The MODEL's own: what the host's last read returned (log entry 4). -/
  hostData : Option (BitVec 64)
  /-- The MODEL's own: a micro-operation word placed at the sequencer's issue point (log entry 5). -/
  issue : Option (BitVec 16)
  deriving DecidableEq, Repr

/-- The state after reset of an instance with the given parameters (R45, R220). -/
def State.resetWith (p : Params) : State where
  params := p
  status := 0x0000
  seq := ⟨.idle, 0⟩
  ctx := none
  sc := Vector.replicate 8 none
  newDone := Vector.replicate 8 none
  blk := Vector.replicate 8 none
  w := none
  lw := none
  ls := none
  dig := Vector.replicate 8 none
  out := Vector.replicate 8 none
  outLen := none
  srcDesc := Vector.replicate 8 none
  cmd := none
  src := []
  host := []
  hostData := none
  issue := none

/-- The machine right after reset (R220), of the instance `Config.params` (log entry 2). -/
def State.reset : State := State.resetWith Config.params

end Sys2Proof.Machine
end

