-- ==== Sys2Proof/Machine/Flags.lean ====
section
/-! DEFINITION. The core's flags (10_state rule R28): the fields of `STATUS` (R21) with the codes of the error
table (60_exceptions rule R201). `SC[i].PH` and `NEWDONE[i]` are fields of State of their own. No arithmetic
operation has a flag (R28, R142). -/

namespace Sys2Proof.Machine

/-- `STATUS.STATE` (R21). -/
inductive CoreState where
  | idle | busy | done | failed
  deriving DecidableEq, Repr

/-- The code of `STATUS.STATE` (R21). -/
def CoreState.code : CoreState → BitVec 2
  | .idle => 0
  | .busy => 1
  | .done => 2
  | .failed => 3

/-- The core's errors (R201): the pairs of `ERR` and `INFO` that can be produced, but the pair without an error. -/
inductive CoreError where
  | hasWideVector128
  | hasWideVector256
  | bigEndianHost
  | illegalCommand
  | lengthTooLarge
  | prepAfterDone
  | bufferSizeMismatch
  deriving DecidableEq, Repr

/-- `ERR` of an error (R201). -/
def CoreError.err : CoreError → BitVec 3
  | .hasWideVector128 => 1
  | .hasWideVector256 => 1
  | .bigEndianHost => 2
  | .illegalCommand => 3
  | .lengthTooLarge => 3
  | .prepAfterDone => 3
  | .bufferSizeMismatch => 3

/-- `INFO` of an error (R201). -/
def CoreError.info : CoreError → BitVec 3
  | .hasWideVector128 => 1
  | .hasWideVector256 => 2
  | .bigEndianHost => 1
  | .illegalCommand => 1
  | .lengthTooLarge => 2
  | .prepAfterDone => 3
  | .bufferSizeMismatch => 4

/-- A `STATUS` word: `INFO` in 7:5, `ERR` in 4:2, `STATE` in 1:0, 15:8 zero (R21). -/
def statusWord (c : CoreState) (err info : BitVec 3) : BitVec 16 :=
  (info.setWidth 16 <<< 5) ||| (err.setWidth 16 <<< 2) ||| c.code.setWidth 16

/-- `STATUS.STATE` (R21). -/
def statusState (st : BitVec 16) : BitVec 2 := st.extractLsb' 0 2

/-- `STATUS.ERR` (R21). -/
def statusErr (st : BitVec 16) : BitVec 3 := st.extractLsb' 2 3

/-- `STATUS.INFO` (R21). -/
def statusInfo (st : BitVec 16) : BitVec 3 := st.extractLsb' 5 3

/-- `STATE = BUSY`: a command is running (R21). -/
def State.busy (s : State) : Bool := statusState s.status == CoreState.busy.code

/-- `STATE = DONE`: `OUT` is valid (R21). -/
def State.isDone (s : State) : Bool := statusState s.status == CoreState.done.code

/-- `STATUS <- (STATE, ERR, INFO)`. -/
def State.setStatus (s : State) (c : CoreState) (err info : BitVec 3) : State :=
  { s with status := statusWord c err info }

/-- `NEWDONE[i] <- v` (R27, R101, R172). -/
def State.setNewDone (s : State) (i : Lane) (v : Bool) : State :=
  { s with newDone := s.newDone.set i (some v) }

/-- `ACTIVE = #{ i < K : SC[i].PH != Done }` over the given lanes, when each has a context (R26). -/
def activeCount (s : State) : List Lane → Except Element Nat
  | [] => .ok 0
  | i :: rest =>
    match s.sc[i], activeCount s rest with
    | none, _ => .error (.streamContext i)
    | some _, .error e => .error e
    | some c, .ok n => .ok (if c.ph = .done then n else n + 1)

end Sys2Proof.Machine
end

