-- ==== Sys2Proof/Machine/Ops.lean ====
section
/-! DEFINITION. The named operations over the state: reading an element that may have no value (R44), the
byte spaces of the sources (R50), the word and vector arrays (R30 to R35), and taking an error, which is the
core's whole exception entry (60_exceptions rule R207), with the start of a command, the only way out of one
(R171, R208). -/

namespace Sys2Proof.Machine

/-- What a step answers. -/
abbrev Result := Host.Outcome State Fault Refusal

/-- First `r`, then `f` on the state it gives. -/
def andThen (r : Result) (f : State → Result) : Result :=
  match r with
  | .next s => f s
  | .fault e => .fault e
  | .refused e => .refused e

/-- Read an element: no value is a fault of the model (R13, R44, 93 U10). -/
def withValue {α : Type} (e : Element) (v : Option α) (f : α → Result) : Result :=
  match v with
  | some x => f x
  | none => .fault (.noValue e)

/-! ### Byte spaces -/

/-- DESIGN CHOICE, unsafe (log entry 3): a source byte the host has not listed reads as 0x00. -/
def unlistedByte : Byte := 0x00

/-- The byte at an address. -/
def readByte : Memory → Nat → Byte
  | [], _ => unlistedByte
  | (b, v) :: m, a => if a = b then v else readByte m a

/-- Write a byte, keeping the canonical form. -/
def writeByte : Memory → Nat → Byte → Memory
  | [], a, v => if v = unlistedByte then [] else [(a, v)]
  | (b, u) :: m, a, v =>
    if a < b then (if v = unlistedByte then (b, u) :: m else (a, v) :: (b, u) :: m)
    else if a = b then (if v = unlistedByte then m else (a, v) :: m)
    else (b, u) :: writeByte m a v

/-- Addresses rise strictly from `lo` on and no cell holds the unlisted value. -/
def Memory.wfFrom : Nat → Memory → Bool
  | _, [] => true
  | lo, (a, v) :: m => decide (lo ≤ a) && decide (v ≠ unlistedByte) && Memory.wfFrom (a + 1) m

/-- The canonical form of a byte space. -/
def Memory.wf (m : Memory) : Bool := Memory.wfFrom 0 m

/-- The offsets of one source: 61 bits (R50). -/
def sourceSpace : Nat := 2 ^ 61

/-- The address of byte `p` of `SRC[i]`. -/
def sourceAddress (i : Lane) (p : Nat) : Nat := i.val * sourceSpace + p

/-- `MemRead(SRC[i], p, n)`: `n` bytes, lowest offset first (R13). -/
def sourceBytes (m : Memory) (i : Lane) (p n : Nat) : List Byte :=
  (List.range n).map fun q => readByte m (sourceAddress i (p + q))

/-! ### Word and vector arrays -/

/-- An array of words of the given width (R30, R35). -/
def WordArray.ofWords : (w : Width) → List (Word w) → WordArray
  | .w32, ws => .w32 ws
  | .w64, ws => .w64 ws

/-- The words of an array that has the given width. -/
def WordArray.words? : (w : Width) → WordArray → Option (List (Word w))
  | .w32, .w32 ws => some ws
  | .w64, .w64 ws => some ws
  | .w32, .w64 _ => none
  | .w64, .w32 _ => none

/-- An array of vectors of words of the given width (R32, R33). -/
def VectorArray.ofVectors : (w : Width) → List (List (Word w)) → VectorArray
  | .w32, vs => .w32 vs
  | .w64, vs => .w64 vs

/-- The vectors of an array that has the given width. -/
def VectorArray.vectors? : (w : Width) → VectorArray → Option (List (List (Word w)))
  | .w32, .w32 vs => some vs
  | .w64, .w64 vs => some vs
  | .w32, .w64 _ => none
  | .w64, .w32 _ => none

/-- The `n` words of an array, when it has that width and length. -/
def wordsOf (w : Width) (n : Nat) (x : WordArray) : Option (List (Word w)) :=
  match x.words? w with
  | some ws => if ws.length = n then some ws else none
  | none => none

/-- The `n` vectors of `K` words of an array, when it has that width and shape. -/
def vectorsOf (w : Width) (n K : Nat) (x : VectorArray) : Option (List (List (Word w))) :=
  match x.vectors? w with
  | some vs => if vs.length = n ∧ ∀ v ∈ vs, v.length = K then some vs else none
  | none => none

/-- Lane `j` of every vector of an array: `X[0][j], X[1][j], ...` (R33). -/
def column {α : Type} (dflt : α) (vs : List (List α)) (j : Nat) : List α := vs.map fun v => v.getD j dflt

/-- `DIG[i] <- words` (R35). -/
def State.setDigest (s : State) (i : Lane) (x : WordArray) : State :=
  { s with dig := s.dig.set i (some x) }

/-- Read `DIG[i][0 .. NW-1]` (R35). Words of another algorithm's shape are not the elements asked for, which
nothing has written (log entry 8). -/
def withDigest (a : Alg) (i : Lane) (s : State) (f : List (Word a.width) → Result) : Result :=
  withValue (.digestWords i) ((s.dig[i]).bind (wordsOf a.width a.stateWords)) f

/-- Read `LS[0 .. NW-1]` (R33), as `withDigest` does (log entry 8). -/
def withLaneState (a : Alg) (k : LaneCount) (s : State) (f : List (List (Word a.width)) → Result) : Result :=
  withValue .laneState (s.ls.bind (vectorsOf a.width a.stateWords k.lanes)) f

/-! ### Taking an error -/

/-- `raise E(info)`: `STATUS` names the error, `SEQ` is `FAILED`, nothing else is written (R207). `seq <- FAILED` gives
the phase only; that `SEQ` then holds the lane index 0, for an internal error at a lane above 0 too, is the model's
choice (DESIGN CHOICE, log entry 24); so is that `SC` and `NEWDONE` stay in `FAILED` (log entry 25). -/
def State.raise (e : CoreError) (s : State) : State :=
  { s.setStatus .failed e.err e.info with seq := ⟨.failed, 0⟩ }

/-- An internal contract violation in mid-command: the same, and every private buffer is then without value
(R207, R204; log entry 9). -/
def State.raiseInternal (e : CoreError) (s : State) : State :=
  { s.raise e with
    blk := Vector.replicate 8 none
    w := none
    lw := none
    ls := none
    dig := Vector.replicate 8 none }

/-- The first two lines of accept (R171), which also end a failed command's `ERR` and `INFO`: there is no other
return from an error (R208). -/
def State.beginCommand (s : State) : State :=
  { s.setStatus .busy 0 0 with
    out := Vector.replicate 8 none
    outLen := none }

/-- `OUTLEN <- ND * w/8`, then `STATE <- DONE` with `ERR = NONE` (R185, R196). When `SC[i]` is "discarded after the
orchestrator extracts its digest" (R24) no rule says; that it, `NEWDONE[i]` and the private buffers keep their values until
a later accept is the model's choice (DESIGN CHOICE, log entry 25). -/
def State.complete (a : Alg) (s : State) : State :=
  { s with outLen := some (BitVec.ofNat 8 a.digestBytes) }.setStatus .done 0 0

/-- `seq <- phase(lane)`; a phase that carries no lane gets 0 (DESIGN CHOICE, log entry 24). -/
def State.setSeq (q : Seq) (s : State) : State := { s with seq := q }

/-- A micro-operation keeps its row of R76 or is refused by name (R81). -/
def microOperation (op : Op) (a : Alg) (k : LaneCount) (i : Lane) (body : Result) : Result :=
  if formOk op a k i then body else .refused .illegalMicroOperation

end Sys2Proof.Machine
end

