-- ==== Sys2Proof/Machine/BlockFramer.lean ====
section
/-! DEFINITION. The BlockFramer (40_block_framer): one framer for every family, lane and path (R97). -/

namespace Sys2Proof.Machine

/-- The 8 bytes of the length field, in the algorithm's order (R94). -/
def lengthField (a : Alg) (c : StreamContext) : List Byte := bytesOfWord a.order 8 c.bitLen

/-- Write the length field over the last 8 bytes of a block (R94). -/
def withLengthField (a : Alg) (c : StreamContext) (blk : List Byte) : List Byte :=
  blk.take (a.blockBytes - 8) ++ lengthField a c

/-- Case 1, a full block of message (R91), from the bytes `msg` at the cursor. -/
def frameFull (a : Alg) (c : StreamContext) (msg : List Byte) : List Byte × StreamContext :=
  (msg, { c with cur := c.cur + BitVec.ofNat 64 a.blockBytes })

/-- Case 2, the last `remaining` message bytes and the marker (R93). -/
def frameLast (a : Alg) (c : StreamContext) (remaining : Nat) (msg : List Byte) : List Byte × StreamContext :=
  let blk := msg ++ 0x80 :: List.replicate (a.blockBytes - remaining - 1) 0x00
  let cur := c.cur + BitVec.ofNat 64 remaining
  if a.lengthRoom ≤ a.blockBytes - remaining - 1 then
    (withLengthField a c blk, { c with cur := cur, ph := .done })
  else (blk, { c with cur := cur, ph := .markerWritten })

/-- Case 3, a block of padding only (R95). -/
def framePadding (a : Alg) (c : StreamContext) : List Byte × StreamContext :=
  let first : Byte := if c.ph = .active then 0x80 else 0x00
  (withLengthField a c (first :: List.replicate (a.blockBytes - 1) 0x00), { c with ph := .done })

/-- `remaining = LEN - CUR` (R90); a cursor beyond the end, which no run reaches, leaves nothing (R95). -/
def StreamContext.remaining (c : StreamContext) : Nat := c.len.toNat - c.cur.toNat

/-- The next block of stream `i` and its context after it (R90); no answer when a byte asked for lies beyond
the 61-bit offsets of `SRC[i]` (R50). -/
def frameBlock (a : Alg) (src : Memory) (i : Lane) (c : StreamContext) : Option (List Byte × StreamContext) :=
  let n := if c.ph = .active then min a.blockBytes c.remaining else 0
  if c.cur.toNat + n ≤ sourceSpace ∨ n = 0 then
    let msg := sourceBytes src i c.cur.toNat n
    if c.ph = .active ∧ a.blockBytes ≤ c.remaining then some (frameFull a c msg)
    else if c.ph = .active ∧ 0 < c.remaining then some (frameLast a c c.remaining msg)
    else some (framePadding a c)
  else none

/-- `PREP.ALG[.Kn] i` (R90): a stream that is `Done` raises PrepAfterDone (R96); otherwise the block, the
context and `NEWDONE[i]` (R101) are written. -/
def prepareBlock (a : Alg) (k : LaneCount) (i : Lane) (s : State) : Result :=
  microOperation .prep a k i <|
    withValue (.streamContext i) s.sc[i] fun c =>
      if c.ph = .done then .next (s.raiseInternal .prepAfterDone)
      else
        match frameBlock a s.src i c with
        | none => .fault (.sourceOffset i)
        | some (blk, c') =>
          .next { s with
            blk := s.blk.set i (some blk)
            sc := s.sc.set i (some c')
            newDone := s.newDone.set i (some (c'.ph == .done)) }

/-- `PREP.MD5`: the BlockFramer (R90). -/
def execPrepMd5 (k : LaneCount) (i : Lane) (s : State) : Result :=
  prepareBlock .md5 k i s

/-- `PREP.SHA1`: the BlockFramer (R90). -/
def execPrepSha1 (k : LaneCount) (i : Lane) (s : State) : Result :=
  prepareBlock .sha1 k i s

/-- `PREP.SHA224`: the BlockFramer (R90). -/
def execPrepSha224 (k : LaneCount) (i : Lane) (s : State) : Result :=
  prepareBlock .sha224 k i s

/-- `PREP.SHA256`: the BlockFramer (R90). -/
def execPrepSha256 (k : LaneCount) (i : Lane) (s : State) : Result :=
  prepareBlock .sha256 k i s

/-- `PREP.SHA384`: the BlockFramer (R90). -/
def execPrepSha384 (k : LaneCount) (i : Lane) (s : State) : Result :=
  prepareBlock .sha384 k i s

/-- `PREP.SHA512`: the BlockFramer (R90). -/
def execPrepSha512 (k : LaneCount) (i : Lane) (s : State) : Result :=
  prepareBlock .sha512 k i s

end Sys2Proof.Machine
end

