-- ==== Sys2Proof/Machine/Commands.lean ====
section
/-! DEFINITION. The two host commands (44_orchestrator): what accepting one does (R171, R172). The micro-operations
that follow are the sequencer's, one a step (R182; log entry 6). -/

namespace Sys2Proof.Machine

/-- The capability and platform checks of `HASHPAR`, in this order (R202, R203, R206). -/
def parallelCheck (a : Alg) (k : LaneCount) (p : Params) : Option CoreError :=
  if vectorBits a k = 128 ∧ ¬ p.cap128 then some .hasWideVector128
  else if vectorBits a k = 256 ∧ ¬ p.cap256 then some .hasWideVector256
  else if ¬ p.hostLe then some .bigEndianHost
  else none

/-- `HASH` makes neither check (R171). -/
def precondition (op : Op) (a : Alg) (k : LaneCount) (p : Params) : Option CoreError :=
  if op = .hashpar then parallelCheck a k p else none

/-- `SRC_DESC.PRESENT` (R39). -/
def descPresent (d : BitVec 64) : Bool := d.getLsbD 63

/-- `PRESENT = 1` with bits 62:61 non-zero: a length of `2^61` bytes or more (R39, R205). -/
def descTooLong (d : BitVec 64) : Bool := descPresent d && d.extractLsb' 61 2 != 0

/-- The length a descriptor gives: `LEN` of a present source, 0 of an absent one (R39, R172). -/
def descLength (d : BitVec 64) : BitVec 64 :=
  if descPresent d then (d.extractLsb' 0 61).setWidth 64 else 0

/-- What the descriptor check finds. -/
inductive DescriptorCheck where
  | allFine
  | tooLong
  | unwritten (i : Lane)
  deriving DecidableEq, Repr

/-- The descriptor check of accept, lowest lane first (R171, R206); a descriptor without value is where the
model refuses (R225). -/
def checkDescriptors (s : State) : List Lane → DescriptorCheck
  | [] => .allFine
  | i :: rest =>
    match s.srcDesc[i] with
    | none => .unwritten i
    | some d => if descTooLong d then .tooLong else checkDescriptors s rest

/-- A StreamContext at construction (R172). -/
def newStream (d : BitVec 64) : StreamContext where
  len := descLength d
  bitLen := 8 * descLength d
  cur := 0
  ph := .active

/-- Stream `i` at the start of a command: `SC[i]` and `NEWDONE[i]` as R172 says, `BLK[i]` and `DIG[i]` without value,
since nothing has written them since that start (R13; log entry 19). A lane without descriptor, which the check has
excluded, is left as it is. -/
def State.constructStream (i : Lane) (s : State) : State :=
  match s.srcDesc[i] with
  | none => s
  | some d =>
    { s with
      sc := s.sc.set i (some (newStream d))
      newDone := s.newDone.set i (some false)
      blk := s.blk.set i none
      dig := s.dig.set i none }

/-- Construct the streams of the given lanes (R172). -/
def constructStreams : List Lane → State → State
  | [], s => s
  | i :: rest, s => constructStreams rest (s.constructStream i)

/-- The buffers all lanes of a call share, at its start: nothing has written them since (R13; log entry 19). -/
def State.dropShared (s : State) : State := { s with w := none, lw := none, ls := none }

/-- The first phase of a command (R183, R184). -/
def firstPhase (op : Op) : SeqPhase := if op = .hashpar then .pInit else .sInit

/-- The word written to `CMD` is illegal (R79): the command fails at once and writes nothing but `STATUS`, `SEQ`
and the invalidated result (R171, R204). -/
def rejectCommand (s : State) : State := s.beginCommand.raise .illegalCommand

/-- Accept of a command (R171), in its order: decode, capability, platform, descriptors, construction. `S_INIT` and
`P_INIT` carry no lane index; that `SEQ` holds 0 there is the model's choice (DESIGN CHOICE, log entry 24). -/
def acceptCommand (op : Op) (a : Alg) (k : LaneCount) (s : State) : Result :=
  if s.busy then .refused .commandWhileBusy
  else if ¬ formOk op a k 0 then .next (rejectCommand s)
  else
    let s1 := { s.beginCommand with ctx := some ⟨a, k⟩ }
    match precondition op a k s.params with
    | some e => .next (s1.raise e)
    | none =>
      match checkDescriptors s1 k.laneList with
      | .unwritten i => .refused (.descriptorUnwritten i)
      | .tooLong => .next (s1.raise .lengthTooLarge)
      | .allFine => .next ((constructStreams k.laneList s1.dropShared).setSeq ⟨firstPhase op, 0⟩)

/-- `HASH.ALG` (R173): accept with K = 1. -/
def acceptHash (a : Alg) (s : State) : Result := acceptCommand .hash a .k1 s

/-- `HASHPAR.ALG.Kn` (R174). -/
def acceptHashpar (a : Alg) (k : LaneCount) (s : State) : Result := acceptCommand .hashpar a k s

/-- `HASH.MD5`: digest of one stream on the scalar path (R173). -/
def execHashMd5 (s : State) : Result :=
  acceptHash .md5 s

/-- `HASH.SHA1`: digest of one stream on the scalar path (R173). -/
def execHashSha1 (s : State) : Result :=
  acceptHash .sha1 s

/-- `HASH.SHA224`: digest of one stream on the scalar path (R173). -/
def execHashSha224 (s : State) : Result :=
  acceptHash .sha224 s

/-- `HASH.SHA256`: digest of one stream on the scalar path (R173). -/
def execHashSha256 (s : State) : Result :=
  acceptHash .sha256 s

/-- `HASH.SHA384`: digest of one stream on the scalar path (R173). -/
def execHashSha384 (s : State) : Result :=
  acceptHash .sha384 s

/-- `HASH.SHA512`: digest of one stream on the scalar path (R173). -/
def execHashSha512 (s : State) : Result :=
  acceptHash .sha512 s

/-- `HASHPAR.MD5`: digests of K streams, lane-parallel (R174). -/
def execHashparMd5 (k : LaneCount) (s : State) : Result :=
  acceptHashpar .md5 k s

/-- `HASHPAR.SHA1`: digests of K streams, lane-parallel (R174). -/
def execHashparSha1 (k : LaneCount) (s : State) : Result :=
  acceptHashpar .sha1 k s

/-- `HASHPAR.SHA224`: digests of K streams, lane-parallel (R174). -/
def execHashparSha224 (k : LaneCount) (s : State) : Result :=
  acceptHashpar .sha224 k s

/-- `HASHPAR.SHA256`: digests of K streams, lane-parallel (R174). -/
def execHashparSha256 (k : LaneCount) (s : State) : Result :=
  acceptHashpar .sha256 k s

/-- `HASHPAR.SHA384`: digests of K streams, lane-parallel (R174). -/
def execHashparSha384 (k : LaneCount) (s : State) : Result :=
  acceptHashpar .sha384 k s

/-- `HASHPAR.SHA512`: digests of K streams, lane-parallel (R174). -/
def execHashparSha512 (k : LaneCount) (s : State) : Result :=
  acceptHashpar .sha512 k s

end Sys2Proof.Machine
end

