-- ==== Sys2Proof/Machine/DigestFinalizer.lean ====
section
/-! DEFINITION. The DigestFinalizer (45_digest_finalizer): FINAL. -/

namespace Sys2Proof.Machine

/-- The digest bytes of a state: its first `ND` words in the algorithm's order (R195). -/
def digestOfState (a : Alg) (h : List (Word a.width)) : List Byte :=
  (h.take a.digestWords).flatMap (bytesOfWord a.order a.width.bytes)

/-- `FINAL.ALG[.Kn] i`: `OUT[i]` holds the digest bytes and no value beyond them (R195). -/
def finalizeDigest (a : Alg) (k : LaneCount) (i : Lane) (s : State) : Result :=
  microOperation .final a k i <|
    withDigest a i s fun h =>
      .next { s with out := s.out.set i (some (digestOfState a h)) }

/-- `FINAL.MD5`: serialise the digest (R195). -/
def execFinalMd5 (k : LaneCount) (i : Lane) (s : State) : Result :=
  finalizeDigest .md5 k i s

/-- `FINAL.SHA1`: serialise the digest (R195). -/
def execFinalSha1 (k : LaneCount) (i : Lane) (s : State) : Result :=
  finalizeDigest .sha1 k i s

/-- `FINAL.SHA224`: serialise the digest (R195). -/
def execFinalSha224 (k : LaneCount) (i : Lane) (s : State) : Result :=
  finalizeDigest .sha224 k i s

/-- `FINAL.SHA256`: serialise the digest (R195). -/
def execFinalSha256 (k : LaneCount) (i : Lane) (s : State) : Result :=
  finalizeDigest .sha256 k i s

/-- `FINAL.SHA384`: serialise the digest (R195). -/
def execFinalSha384 (k : LaneCount) (i : Lane) (s : State) : Result :=
  finalizeDigest .sha384 k i s

/-- `FINAL.SHA512`: serialise the digest (R195). -/
def execFinalSha512 (k : LaneCount) (i : Lane) (s : State) : Result :=
  finalizeDigest .sha512 k i s

end Sys2Proof.Machine
end

