-- ==== Sys2Proof/Machine/Units.lean ====
section
/-! DEFINITION. The arithmetic units: the word operations of 00_scope rules R8 to R11 as one record, with two
instances, the scalar unit on w-bit words and the vector unit on K-lane vectors (R12, R157). The compression
rules are written once over the record (R154: the lane path has "identical control flow"). -/

namespace Sys2Proof

/-- The operations a compression may use (R142, R157), on a carrier `α` of w-bit words or vectors of them. -/
structure WordUnit (w : Nat) (α : Type) where
  /-- Addition modulo `2^w` (R8). -/
  add : α → α → α
  and : α → α → α
  or : α → α → α
  xor : α → α → α
  /-- `ANDNOT(x, y) = (NOT x) AND y` (R11). -/
  andnot : α → α → α
  not : α → α
  /-- Logical shifts by one scalar count (R9). -/
  shl : Amount w → α → α
  shr : Amount w → α → α
  /-- A constant, in every lane (R12). -/
  broadcast : BitVec w → α

/-- The scalar unit (R8, R9, R11). -/
def scalarUnit (w : Nat) : WordUnit w (BitVec w) where
  add x y := x + y
  and x y := x &&& y
  or x y := x ||| y
  xor x y := x ^^^ y
  andnot x y := ~~~x &&& y
  not x := ~~~x
  shl n x := x <<< n.val
  shr n x := x >>> n.val
  broadcast x := x

/-- The vector unit on K lanes (R12, R157): each operation lane by lane, no data crossing lanes;
`VNOT(x) = VXOR(x, BROADCAST(2^w - 1))`. -/
def vectorUnit (w K : Nat) : WordUnit w (List (BitVec w)) where
  add := List.zipWith (scalarUnit w).add
  and := List.zipWith (scalarUnit w).and
  or := List.zipWith (scalarUnit w).or
  xor := List.zipWith (scalarUnit w).xor
  andnot := List.zipWith (scalarUnit w).andnot
  not := fun x => List.zipWith (scalarUnit w).xor x (List.replicate K (BitVec.allOnes w))
  shl n := List.map ((scalarUnit w).shl n)
  shr n := List.map ((scalarUnit w).shr n)
  broadcast x := List.replicate K x

/-- `ROTL_w(x, n) = SHL_w(x, n) OR SHR_w(x, w - n)` (R10, R157). -/
def rotl {w : Nat} {α : Type} (u : WordUnit w α) (n : Amount w) (x : α) : α :=
  u.or (u.shl n x) (u.shr n.rest x)

/-- `ROTR_w(x, n) = SHR_w(x, n) OR SHL_w(x, w - n)` (R10, R157). -/
def rotr {w : Nat} {α : Type} (u : WordUnit w α) (n : Amount w) (x : α) : α :=
  u.or (u.shr n x) (u.shl n.rest x)

end Sys2Proof
end

