-- ==== Sys2Proof/Machine/Rounds.lean ====
section
/-! DEFINITION. The schedule recurrences (42_scalar_compressor rules R132 to R135, 43_lane_compressor rule
R153) and the compression steps (R137 to R141, R154), written once for both units. Working registers are
local lists in the order a, b, c, ... (R36); a list that is not `NW` long is left as it is, which no operation
reaches: each checks the length of what it reads. -/

namespace Sys2Proof

variable {w : Nat} {α : Type}

/-- `ch(x, y, z) = (x AND y) XOR ((NOT x) AND z)` (R114). -/
def ch (u : WordUnit w α) (x y z : α) : α := u.xor (u.and x y) (u.andnot x z)

/-- `maj(x, y, z)` (R114). -/
def maj (u : WordUnit w α) (x y z : α) : α := u.xor (u.xor (u.and x y) (u.and x z)) (u.and y z)

/-- `parity(x, y, z)` (R114). -/
def parity (u : WordUnit w α) (x y z : α) : α := u.xor (u.xor x y) z

/-- The word `back` places before the end of the schedule built so far: `W[t - back]` when `t` words stand. -/
def wordBack (u : WordUnit w α) (ws : List α) (back : Nat) : α :=
  ws.getD (ws.length - back) (u.broadcast 0)

/-- `Expand_MD5`: `W[t] <- W[g_MD5(t)]` (R132). -/
def nextMd5 (u : WordUnit 32 α) (ws : List α) : α := ws.getD (gMd5 ws.length) (u.broadcast 0)

/-- `Expand_SHA1` (R133, R113). -/
def nextSha1 (u : WordUnit 32 α) (ws : List α) : α :=
  rotl u (amount 1)
    (u.xor (u.xor (wordBack u ws 3) (wordBack u ws 8)) (u.xor (wordBack u ws 14) (wordBack u ws 16)))

/-- The rotate and shift amounts and the constants of one SHA-2 family (R117, R118, R121, R122). -/
structure Sha2 (w : Nat) where
  bigSigma0 : Amount w × Amount w × Amount w
  bigSigma1 : Amount w × Amount w × Amount w
  smallSigma0 : Amount w × Amount w × Amount w
  smallSigma1 : Amount w × Amount w × Amount w
  k : List (BitVec w)

/-- SHA-2-32 (R117, R118). -/
def sha2x32 : Sha2 32 where
  bigSigma0 := (amount 2, amount 13, amount 22)
  bigSigma1 := (amount 6, amount 11, amount 25)
  smallSigma0 := (amount 7, amount 18, amount 3)
  smallSigma1 := (amount 17, amount 19, amount 10)
  k := kSha2x32

/-- SHA-2-64 (R121, R122). -/
def sha2x64 : Sha2 64 where
  bigSigma0 := (amount 28, amount 34, amount 39)
  bigSigma1 := (amount 14, amount 18, amount 41)
  smallSigma0 := (amount 1, amount 8, amount 7)
  smallSigma1 := (amount 19, amount 61, amount 6)
  k := kSha2x64

/-- `Σ(x) = ROTR(x, p) XOR ROTR(x, q) XOR ROTR(x, r)` (R118, R122). -/
def bigSigma (u : WordUnit w α) (n : Amount w × Amount w × Amount w) (x : α) : α :=
  u.xor (u.xor (rotr u n.1 x) (rotr u n.2.1 x)) (rotr u n.2.2 x)

/-- `σ(x) = ROTR(x, p) XOR ROTR(x, q) XOR SHR(x, r)` (R118, R122, R153). -/
def smallSigma (u : WordUnit w α) (n : Amount w × Amount w × Amount w) (x : α) : α :=
  u.xor (u.xor (rotr u n.1 x) (rotr u n.2.1 x)) (u.shr n.2.2 x)

/-- `Expand_SHA2_32` and `Expand_SHA2_64` (R134, R135). -/
def nextSha2 (p : Sha2 w) (u : WordUnit w α) (ws : List α) : α :=
  u.add (u.add (smallSigma u p.smallSigma1 (wordBack u ws 2)) (wordBack u ws 7))
    (u.add (smallSigma u p.smallSigma0 (wordBack u ws 15)) (wordBack u ws 16))

/-- The family's next schedule word from all the earlier ones (R131, R153). -/
def nextWord : (f : Family) → WordUnit f.width.bits α → List α → α
  | .md5, u, ws => nextMd5 u ws
  | .sha1, u, ws => nextSha1 u ws
  | .sha2x32, u, ws => nextSha2 sha2x32 u ws
  | .sha2x64, u, ws => nextSha2 sha2x64 u ws

/-- `n` more schedule words, in increasing order (R131). -/
def extend (f : Family) (u : WordUnit f.width.bits α) : Nat → List α → List α
  | 0, ws => ws
  | n + 1, ws => extend f u n (ws ++ [nextWord f u ws])

/-- `Expand_family`: the schedule of `S` words from its first 16 (R131, R153). -/
def expand (f : Family) (u : WordUnit f.width.bits α) (first : List α) : List α :=
  extend f u (f.steps - 16) first

/-- MD5's per-quarter function of `b, c, d` (R137). -/
def fMd5 (u : WordUnit 32 α) (r : Nat) (b c d : α) : α :=
  if r < 16 then u.or (u.and b c) (u.andnot b d)
  else if r < 32 then u.or (u.and d b) (u.andnot d c)
  else if r < 48 then u.xor (u.xor b c) d
  else u.xor c (u.or b (u.not d))

/-- `Step_MD5` (R137). -/
def stepMd5 (u : WordUnit 32 α) (r : Nat) (regs : List α) (x : α) : List α :=
  match regs with
  | [a, b, c, d] =>
    let y := u.add (u.add (u.add a (fMd5 u r b c d)) (u.broadcast (kMd5.getD r 0))) x
    [d, u.add b (rotl u (sMd5 r) y), b, c]
  | other => other

/-- SHA-1's per-quarter function of `b, c, d` (R138). -/
def fSha1 (u : WordUnit 32 α) (t : Nat) (b c d : α) : α :=
  if t < 20 then ch u b c d
  else if t < 40 then parity u b c d
  else if t < 60 then maj u b c d
  else parity u b c d

/-- `Step_SHA1` (R138). -/
def stepSha1 (u : WordUnit 32 α) (t : Nat) (regs : List α) (x : α) : List α :=
  match regs with
  | [a, b, c, d, e] =>
    let y := u.add (u.add (u.add (u.add (rotl u (amount 5) a) (fSha1 u t b c d)) e)
      (u.broadcast (kSha1.getD (t / 20) 0))) x
    [y, a, rotl u (amount 30) b, c, d]
  | other => other

/-- `Step_SHA2_32` and `Step_SHA2_64` (R139, R140). -/
def stepSha2 (p : Sha2 w) (u : WordUnit w α) (t : Nat) (regs : List α) (x : α) : List α :=
  match regs with
  | [a, b, c, d, e, f, g, h] =>
    let t1 := u.add (u.add (u.add (u.add h (bigSigma u p.bigSigma1 e)) (ch u e f g))
      (u.broadcast (p.k.getD t 0))) x
    let t2 := u.add (bigSigma u p.bigSigma0 a) (maj u a b c)
    [u.add t1 t2, a, b, c, u.add d t1, e, f, g]
  | other => other

/-- One step of the family (R137 to R140, R154). -/
def stepRegs : (f : Family) → WordUnit f.width.bits α → Nat → List α → α → List α
  | .md5, u, t, regs, x => stepMd5 u t regs x
  | .sha1, u, t, regs, x => stepSha1 u t regs x
  | .sha2x32, u, t, regs, x => stepSha2 sha2x32 u t regs x
  | .sha2x64, u, t, regs, x => stepSha2 sha2x64 u t regs x

/-- The steps `t, t + 1, ...` over the schedule words given (R136). -/
def rounds (f : Family) (u : WordUnit f.width.bits α) : Nat → List α → List α → List α
  | _, regs, [] => regs
  | t, regs, x :: xs => rounds f u (t + 1) (stepRegs f u t regs x) xs

/-- `Compress_family(H, W)`: the steps, then the feed-forward (R136, R141, R154). -/
def compress (f : Family) (u : WordUnit f.width.bits α) (h ws : List α) : List α :=
  List.zipWith u.add h (rounds f u 0 h ws)

end Sys2Proof
end

