-- ==== Sys2Proof/Machine/LaneCompressor.lean ====
section
/-! DEFINITION. The LaneCompressor, its transpose and the snapshot (43_lane_compressor): INITL, PACK, COMPL, SNAP. -/

namespace Sys2Proof.Machine

/-- `INITL.ALG.Kn`: `LS[k] <- BROADCAST_K(IV(ALG)[k])` (R150). -/
def initLanes (a : Alg) (k : LaneCount) (s : State) : Result :=
  microOperation .initl a k 0 <|
    .next { s with
      ls := some (VectorArray.ofVectors a.width
        (a.iv.map (vectorUnit a.width.bits k.lanes).broadcast)) }

/-- The blocks of the given lanes, or the first lane whose block has no value. -/
def readBlocks (s : State) : List Lane → Except Lane (List (List Byte))
  | [] => .ok []
  | i :: rest =>
    match s.blk[i], readBlocks s rest with
    | none, _ => .error i
    | some _, .error j => .error j
    | some b, .ok bs => .ok (b :: bs)

/-- The gather: vector `t` holds word `t` of every block, lane `j` of it that of block `j` (R152). -/
def gather (a : Alg) (blks : List (List Byte)) : List (List (Word a.width)) :=
  (List.range 16).map fun t => blks.map fun b => blockWord a.order a.width b t

/-- `PACK.ALG.Kn`: gather the K blocks, stale ones included (R42), and expand lane-wise (R151 to R153). A block
that is not `B` bytes, which no run reaches, is a BufferSizeMismatch (R204; log entry 8). All K blocks are read before a
length is looked at: where one has no value and another has not `B` bytes, the fault wins, whichever lane is lower; the spec
gives no order, this one is the model's choice (DESIGN CHOICE, log entry 8). -/
def packLanes (a : Alg) (k : LaneCount) (s : State) : Result :=
  microOperation .pack a k 0 <|
    match readBlocks s k.laneList with
    | .error i => .fault (.noValue (.block i))
    | .ok blks =>
      if ∀ b ∈ blks, b.length = a.blockBytes then
        .next { s with
          lw := some (VectorArray.ofVectors a.width
            (expand a.family (vectorUnit a.width.bits k.lanes) (gather a blks))) }
      else .next (s.raiseInternal .bufferSizeMismatch)

/-- `COMPL.ALG.Kn`: the vector form of the compression over all K lanes (R154). A schedule that is not `S`
vectors of K words, which no run reaches, is a BufferSizeMismatch (R204; log entry 8); that `LS` is read first, so that its
having no value wins over the schedule's shape, is the model's choice (DESIGN CHOICE, log entry 8). -/
def compressLanes (a : Alg) (k : LaneCount) (s : State) : Result :=
  microOperation .compl a k 0 <|
    withLaneState a k s fun ls =>
      withValue .laneSchedule s.lw fun x =>
        match vectorsOf a.width a.steps k.lanes x with
        | some lw =>
          .next { s with
            ls := some (VectorArray.ofVectors a.width
              (compress a.family (vectorUnit a.width.bits k.lanes) ls lw)) }
        | none => .next (s.raiseInternal .bufferSizeMismatch)

/-- `SNAP.ALG.Kn i`: `DIG[i][k] <- LS[k][i]` for all `NW` words; `LS` is unchanged (R156). -/
def snapshotLane (a : Alg) (k : LaneCount) (i : Lane) (s : State) : Result :=
  microOperation .snap a k i <|
    withLaneState a k s fun ls =>
      .next (s.setDigest i (WordArray.ofWords a.width (column 0 ls i.val)))

/-- `INITL.MD5`: seed the LaneState (R150). -/
def execInitlMd5 (k : LaneCount) (s : State) : Result :=
  initLanes .md5 k s

/-- `INITL.SHA1`: seed the LaneState (R150). -/
def execInitlSha1 (k : LaneCount) (s : State) : Result :=
  initLanes .sha1 k s

/-- `INITL.SHA224`: seed the LaneState (R150). -/
def execInitlSha224 (k : LaneCount) (s : State) : Result :=
  initLanes .sha224 k s

/-- `INITL.SHA256`: seed the LaneState (R150). -/
def execInitlSha256 (k : LaneCount) (s : State) : Result :=
  initLanes .sha256 k s

/-- `INITL.SHA384`: seed the LaneState (R150). -/
def execInitlSha384 (k : LaneCount) (s : State) : Result :=
  initLanes .sha384 k s

/-- `INITL.SHA512`: seed the LaneState (R150). -/
def execInitlSha512 (k : LaneCount) (s : State) : Result :=
  initLanes .sha512 k s

/-- `PACK.MD5`: gather and expand the lane schedule (R151). -/
def execPackMd5 (k : LaneCount) (s : State) : Result :=
  packLanes .md5 k s

/-- `PACK.SHA1`: gather and expand the lane schedule (R151). -/
def execPackSha1 (k : LaneCount) (s : State) : Result :=
  packLanes .sha1 k s

/-- `PACK.SHA224`: gather and expand the lane schedule (R151). -/
def execPackSha224 (k : LaneCount) (s : State) : Result :=
  packLanes .sha224 k s

/-- `PACK.SHA256`: gather and expand the lane schedule (R151). -/
def execPackSha256 (k : LaneCount) (s : State) : Result :=
  packLanes .sha256 k s

/-- `PACK.SHA384`: gather and expand the lane schedule (R151). -/
def execPackSha384 (k : LaneCount) (s : State) : Result :=
  packLanes .sha384 k s

/-- `PACK.SHA512`: gather and expand the lane schedule (R151). -/
def execPackSha512 (k : LaneCount) (s : State) : Result :=
  packLanes .sha512 k s

/-- `COMPL.MD5`: compress all lanes (R154). -/
def execComplMd5 (k : LaneCount) (s : State) : Result :=
  compressLanes .md5 k s

/-- `COMPL.SHA1`: compress all lanes (R154). -/
def execComplSha1 (k : LaneCount) (s : State) : Result :=
  compressLanes .sha1 k s

/-- `COMPL.SHA224`: compress all lanes (R154). -/
def execComplSha224 (k : LaneCount) (s : State) : Result :=
  compressLanes .sha224 k s

/-- `COMPL.SHA256`: compress all lanes (R154). -/
def execComplSha256 (k : LaneCount) (s : State) : Result :=
  compressLanes .sha256 k s

/-- `COMPL.SHA384`: compress all lanes (R154). -/
def execComplSha384 (k : LaneCount) (s : State) : Result :=
  compressLanes .sha384 k s

/-- `COMPL.SHA512`: compress all lanes (R154). -/
def execComplSha512 (k : LaneCount) (s : State) : Result :=
  compressLanes .sha512 k s

/-- `SNAP.MD5`: extract a lane (R156). -/
def execSnapMd5 (k : LaneCount) (i : Lane) (s : State) : Result :=
  snapshotLane .md5 k i s

/-- `SNAP.SHA1`: extract a lane (R156). -/
def execSnapSha1 (k : LaneCount) (i : Lane) (s : State) : Result :=
  snapshotLane .sha1 k i s

/-- `SNAP.SHA224`: extract a lane (R156). -/
def execSnapSha224 (k : LaneCount) (i : Lane) (s : State) : Result :=
  snapshotLane .sha224 k i s

/-- `SNAP.SHA256`: extract a lane (R156). -/
def execSnapSha256 (k : LaneCount) (i : Lane) (s : State) : Result :=
  snapshotLane .sha256 k i s

/-- `SNAP.SHA384`: extract a lane (R156). -/
def execSnapSha384 (k : LaneCount) (i : Lane) (s : State) : Result :=
  snapshotLane .sha384 k i s

/-- `SNAP.SHA512`: extract a lane (R156). -/
def execSnapSha512 (k : LaneCount) (i : Lane) (s : State) : Result :=
  snapshotLane .sha512 k i s

end Sys2Proof.Machine
end

