-- ==== Sys2Proof/Machine/ScalarCompressor.lean ====
section
/-! DEFINITION. The ScalarCompressor (42_scalar_compressor): INITS, SCHED, COMP. -/

namespace Sys2Proof.Machine

/-- `INITS.ALG[.Kn] i`: `DIG[i] <- IV(ALG)` (R130). -/
def initScalar (a : Alg) (k : LaneCount) (i : Lane) (s : State) : Result :=
  microOperation .inits a k i <| .next (s.setDigest i (WordArray.ofWords a.width a.iv))

/-- The schedule of a block on the scalar path: the 16 block words and the family's recurrence (R131). -/
def scheduleOf (a : Alg) (blk : List Byte) : List (Word a.width) :=
  expand a.family (scalarUnit a.width.bits) (blockWords a.order a.width blk)

/-- `SCHED.ALG[.Kn] i`: `W <- ` the schedule of `BLK[i]` (R131). A block that is not `B` bytes, which no run
reaches, is a BufferSizeMismatch (R204; log entry 8). -/
def buildSchedule (a : Alg) (k : LaneCount) (i : Lane) (s : State) : Result :=
  microOperation .sched a k i <|
    withValue (.block i) s.blk[i] fun blk =>
      if blk.length = a.blockBytes then
        .next { s with w := some (WordArray.ofWords a.width (scheduleOf a blk)) }
      else .next (s.raiseInternal .bufferSizeMismatch)

/-- `COMP.ALG[.Kn] i`: `DIG[i] <- Compress(DIG[i], W)` (R136, R141). A schedule that is not `S` words, which no
run reaches, is a BufferSizeMismatch (R204; log entry 8); that `DIG[i]` is read first, so that its having no value wins over
the schedule's shape, is the model's choice (DESIGN CHOICE, log entry 8). -/
def compressScalar (a : Alg) (k : LaneCount) (i : Lane) (s : State) : Result :=
  microOperation .comp a k i <|
    withDigest a i s fun h =>
      withValue .schedule s.w fun x =>
        match wordsOf a.width a.steps x with
        | some ws =>
          .next (s.setDigest i
            (WordArray.ofWords a.width (compress a.family (scalarUnit a.width.bits) h ws)))
        | none => .next (s.raiseInternal .bufferSizeMismatch)

/-- `INITS.MD5`: seed the scalar state (R130). -/
def execInitsMd5 (k : LaneCount) (i : Lane) (s : State) : Result :=
  initScalar .md5 k i s

/-- `INITS.SHA1`: seed the scalar state (R130). -/
def execInitsSha1 (k : LaneCount) (i : Lane) (s : State) : Result :=
  initScalar .sha1 k i s

/-- `INITS.SHA224`: seed the scalar state (R130). -/
def execInitsSha224 (k : LaneCount) (i : Lane) (s : State) : Result :=
  initScalar .sha224 k i s

/-- `INITS.SHA256`: seed the scalar state (R130). -/
def execInitsSha256 (k : LaneCount) (i : Lane) (s : State) : Result :=
  initScalar .sha256 k i s

/-- `INITS.SHA384`: seed the scalar state (R130). -/
def execInitsSha384 (k : LaneCount) (i : Lane) (s : State) : Result :=
  initScalar .sha384 k i s

/-- `INITS.SHA512`: seed the scalar state (R130). -/
def execInitsSha512 (k : LaneCount) (i : Lane) (s : State) : Result :=
  initScalar .sha512 k i s

/-- `SCHED.MD5`: build the scalar schedule (R131). -/
def execSchedMd5 (k : LaneCount) (i : Lane) (s : State) : Result :=
  buildSchedule .md5 k i s

/-- `SCHED.SHA1`: build the scalar schedule (R131). -/
def execSchedSha1 (k : LaneCount) (i : Lane) (s : State) : Result :=
  buildSchedule .sha1 k i s

/-- `SCHED.SHA224`: build the scalar schedule (R131). -/
def execSchedSha224 (k : LaneCount) (i : Lane) (s : State) : Result :=
  buildSchedule .sha224 k i s

/-- `SCHED.SHA256`: build the scalar schedule (R131). -/
def execSchedSha256 (k : LaneCount) (i : Lane) (s : State) : Result :=
  buildSchedule .sha256 k i s

/-- `SCHED.SHA384`: build the scalar schedule (R131). -/
def execSchedSha384 (k : LaneCount) (i : Lane) (s : State) : Result :=
  buildSchedule .sha384 k i s

/-- `SCHED.SHA512`: build the scalar schedule (R131). -/
def execSchedSha512 (k : LaneCount) (i : Lane) (s : State) : Result :=
  buildSchedule .sha512 k i s

/-- `COMP.MD5`: compress the schedule into the state (R136). -/
def execCompMd5 (k : LaneCount) (i : Lane) (s : State) : Result :=
  compressScalar .md5 k i s

/-- `COMP.SHA1`: compress the schedule into the state (R136). -/
def execCompSha1 (k : LaneCount) (i : Lane) (s : State) : Result :=
  compressScalar .sha1 k i s

/-- `COMP.SHA224`: compress the schedule into the state (R136). -/
def execCompSha224 (k : LaneCount) (i : Lane) (s : State) : Result :=
  compressScalar .sha224 k i s

/-- `COMP.SHA256`: compress the schedule into the state (R136). -/
def execCompSha256 (k : LaneCount) (i : Lane) (s : State) : Result :=
  compressScalar .sha256 k i s

/-- `COMP.SHA384`: compress the schedule into the state (R136). -/
def execCompSha384 (k : LaneCount) (i : Lane) (s : State) : Result :=
  compressScalar .sha384 k i s

/-- `COMP.SHA512`: compress the schedule into the state (R136). -/
def execCompSha512 (k : LaneCount) (i : Lane) (s : State) : Result :=
  compressScalar .sha512 k i s

end Sys2Proof.Machine
end

