-- ==== Sys2Proof/Machine/Dispatch.lean ====
section
/-! DEFINITION. One arm per constructor of `Instr`: each a direct call of the instruction's own meaning. -/

namespace Sys2Proof.Machine

def exec (i : Instr) (s : State) : Host.Outcome State Fault Refusal :=
  match i with
  | .hashMd5 => Sys2Proof.Machine.execHashMd5 s
  | .hashSha1 => Sys2Proof.Machine.execHashSha1 s
  | .hashSha224 => Sys2Proof.Machine.execHashSha224 s
  | .hashSha256 => Sys2Proof.Machine.execHashSha256 s
  | .hashSha384 => Sys2Proof.Machine.execHashSha384 s
  | .hashSha512 => Sys2Proof.Machine.execHashSha512 s
  | .hashparMd5 k => Sys2Proof.Machine.execHashparMd5 k s
  | .hashparSha1 k => Sys2Proof.Machine.execHashparSha1 k s
  | .hashparSha224 k => Sys2Proof.Machine.execHashparSha224 k s
  | .hashparSha256 k => Sys2Proof.Machine.execHashparSha256 k s
  | .hashparSha384 k => Sys2Proof.Machine.execHashparSha384 k s
  | .hashparSha512 k => Sys2Proof.Machine.execHashparSha512 k s
  | .initsMd5 k l => Sys2Proof.Machine.execInitsMd5 k l s
  | .initsSha1 k l => Sys2Proof.Machine.execInitsSha1 k l s
  | .initsSha224 k l => Sys2Proof.Machine.execInitsSha224 k l s
  | .initsSha256 k l => Sys2Proof.Machine.execInitsSha256 k l s
  | .initsSha384 k l => Sys2Proof.Machine.execInitsSha384 k l s
  | .initsSha512 k l => Sys2Proof.Machine.execInitsSha512 k l s
  | .initlMd5 k => Sys2Proof.Machine.execInitlMd5 k s
  | .initlSha1 k => Sys2Proof.Machine.execInitlSha1 k s
  | .initlSha224 k => Sys2Proof.Machine.execInitlSha224 k s
  | .initlSha256 k => Sys2Proof.Machine.execInitlSha256 k s
  | .initlSha384 k => Sys2Proof.Machine.execInitlSha384 k s
  | .initlSha512 k => Sys2Proof.Machine.execInitlSha512 k s
  | .prepMd5 k l => Sys2Proof.Machine.execPrepMd5 k l s
  | .prepSha1 k l => Sys2Proof.Machine.execPrepSha1 k l s
  | .prepSha224 k l => Sys2Proof.Machine.execPrepSha224 k l s
  | .prepSha256 k l => Sys2Proof.Machine.execPrepSha256 k l s
  | .prepSha384 k l => Sys2Proof.Machine.execPrepSha384 k l s
  | .prepSha512 k l => Sys2Proof.Machine.execPrepSha512 k l s
  | .schedMd5 k l => Sys2Proof.Machine.execSchedMd5 k l s
  | .schedSha1 k l => Sys2Proof.Machine.execSchedSha1 k l s
  | .schedSha224 k l => Sys2Proof.Machine.execSchedSha224 k l s
  | .schedSha256 k l => Sys2Proof.Machine.execSchedSha256 k l s
  | .schedSha384 k l => Sys2Proof.Machine.execSchedSha384 k l s
  | .schedSha512 k l => Sys2Proof.Machine.execSchedSha512 k l s
  | .compMd5 k l => Sys2Proof.Machine.execCompMd5 k l s
  | .compSha1 k l => Sys2Proof.Machine.execCompSha1 k l s
  | .compSha224 k l => Sys2Proof.Machine.execCompSha224 k l s
  | .compSha256 k l => Sys2Proof.Machine.execCompSha256 k l s
  | .compSha384 k l => Sys2Proof.Machine.execCompSha384 k l s
  | .compSha512 k l => Sys2Proof.Machine.execCompSha512 k l s
  | .packMd5 k => Sys2Proof.Machine.execPackMd5 k s
  | .packSha1 k => Sys2Proof.Machine.execPackSha1 k s
  | .packSha224 k => Sys2Proof.Machine.execPackSha224 k s
  | .packSha256 k => Sys2Proof.Machine.execPackSha256 k s
  | .packSha384 k => Sys2Proof.Machine.execPackSha384 k s
  | .packSha512 k => Sys2Proof.Machine.execPackSha512 k s
  | .complMd5 k => Sys2Proof.Machine.execComplMd5 k s
  | .complSha1 k => Sys2Proof.Machine.execComplSha1 k s
  | .complSha224 k => Sys2Proof.Machine.execComplSha224 k s
  | .complSha256 k => Sys2Proof.Machine.execComplSha256 k s
  | .complSha384 k => Sys2Proof.Machine.execComplSha384 k s
  | .complSha512 k => Sys2Proof.Machine.execComplSha512 k s
  | .snapMd5 k l => Sys2Proof.Machine.execSnapMd5 k l s
  | .snapSha1 k l => Sys2Proof.Machine.execSnapSha1 k l s
  | .snapSha224 k l => Sys2Proof.Machine.execSnapSha224 k l s
  | .snapSha256 k l => Sys2Proof.Machine.execSnapSha256 k l s
  | .snapSha384 k l => Sys2Proof.Machine.execSnapSha384 k l s
  | .snapSha512 k l => Sys2Proof.Machine.execSnapSha512 k l s
  | .finalMd5 k l => Sys2Proof.Machine.execFinalMd5 k l s
  | .finalSha1 k l => Sys2Proof.Machine.execFinalSha1 k l s
  | .finalSha224 k l => Sys2Proof.Machine.execFinalSha224 k l s
  | .finalSha256 k l => Sys2Proof.Machine.execFinalSha256 k l s
  | .finalSha384 k l => Sys2Proof.Machine.execFinalSha384 k l s
  | .finalSha512 k l => Sys2Proof.Machine.execFinalSha512 k l s

end Sys2Proof.Machine
end

