-- ==== Sys2Proof/Machine/Sequencer.lean ====
section
/-! DEFINITION. The sequencer (44_orchestrator rules R182 to R184): the row of the current phase, the word it
issues (R81), and the step that takes it. -/

namespace Sys2Proof.Machine

/-- A row of the tables R183 and R184 whose condition holds: what it does besides moving to `next`. -/
structure SeqRow where
  /-- `NEWDONE[i] <- 0`. -/
  clear : Option Lane
  /-- The micro-operation issued, with its lane operand (0 where the form has none). -/
  micro : Option (Op × Lane)
  /-- The next phase and lane index; 0 for a phase that carries none (log entry 24). -/
  next : Seq
  /-- `OUTLEN <- ND * w/8; STATE <- DONE`. -/
  finish : Bool
  deriving DecidableEq, Repr

/-- A row that issues nothing. -/
def goto (next : Seq) : SeqRow := ⟨none, none, next, false⟩

/-- A row that issues one micro-operation. -/
def issues (op : Op) (i : Lane) (next : Seq) : SeqRow := ⟨none, some (op, i), next, false⟩

/-- The phase has no step of the sequencer (R182). -/
def SeqPhase.terminal : SeqPhase → Bool
  | .idle | .done | .failed => true
  | .sInit | .sTest | .sSched | .sComp | .sFinal | .pInit | .pPrep | .pPack | .pCompl | .pSnap | .pTest
  | .dNext | .dTest | .dSched | .dComp | .fFinal => false

/-- `THRESH(K)` (R5, R179). The scalar path has no loop test: K = 1 has no threshold. -/
def threshold (p : Params) : LaneCount → Nat
  | .k1 => 0
  | .k2 => p.thresh2
  | .k4 => p.thresh4
  | .k8 => p.thresh8

/-- Choose a row by `SC[i].PH`. -/
def byPhase (s : State) (i : Lane) (isDone notDone : SeqRow) : Except Fault SeqRow :=
  match s.sc[i] with
  | none => .error (.noValue (.streamContext i))
  | some c => .ok (if c.ph = .done then isDone else notDone)

/-- Choose a row by `i < K` (R184): in `D_TEST`, `D_SCHED`, `D_COMP` the tables have no row for `i = K`. -/
def byLane (k : LaneCount) (n : Nat) (atEnd : Except Fault SeqRow) (inRange : Lane → Except Fault SeqRow) :
    Except Fault SeqRow :=
  match laneAt k n with
  | none => atEnd
  | some i => inRange i

/-- The enabled row of the current phase (R183, R184), for a call of lane count `k`. The tables give no lane index to the
phases `S_*`, `P_INIT`, `P_PACK`, `P_COMPL`, `P_TEST` and `DONE`; that `SEQ` holds 0 in them is the model's choice
(DESIGN CHOICE, log entry 24). -/
def seqRow (k : LaneCount) (s : State) : Except Fault SeqRow :=
  let n := s.seq.lane
  match s.seq.phase with
  | .idle | .done | .failed => .error .noSequencerRow
  | .sInit => .ok (issues .inits 0 ⟨.sTest, 0⟩)
  | .sTest => byPhase s 0 (goto ⟨.sFinal, 0⟩) (issues .prep 0 ⟨.sSched, 0⟩)
  | .sSched => .ok (issues .sched 0 ⟨.sComp, 0⟩)
  | .sComp => .ok (issues .comp 0 ⟨.sTest, 0⟩)
  | .sFinal => .ok { issues .final 0 ⟨.done, 0⟩ with finish := true }
  | .pInit => .ok (issues .initl 0 ⟨.pPrep, 0⟩)
  | .pPrep =>
    byLane k n (.ok (goto ⟨.pPack, 0⟩)) fun i =>
      byPhase s i { goto ⟨.pPrep, n + 1⟩ with clear := some i }
        { issues .prep i ⟨.pPrep, n + 1⟩ with clear := some i }
  | .pPack => .ok (issues .pack 0 ⟨.pCompl, 0⟩)
  | .pCompl => .ok (issues .compl 0 ⟨.pSnap, 0⟩)
  | .pSnap =>
    byLane k n (.ok (goto ⟨.pTest, 0⟩)) fun i =>
      match s.newDone[i] with
      | none => .error (.noValue (.newDone i))
      | some true => .ok (issues .snap i ⟨.pSnap, n + 1⟩)
      | some false => .ok (goto ⟨.pSnap, n + 1⟩)
  | .pTest =>
    match activeCount s k.laneList with
    | .error e => .error (.noValue e)
    | .ok active => .ok (goto (if threshold s.params k < active then ⟨.pPrep, 0⟩ else ⟨.dNext, 0⟩))
  | .dNext =>
    byLane k n (.ok (goto ⟨.fFinal, 0⟩)) fun i =>
      byPhase s i (goto ⟨.dNext, n + 1⟩) (issues .snap i ⟨.dTest, n⟩)
  | .dTest =>
    byLane k n (.error .noSequencerRow) fun i =>
      byPhase s i (goto ⟨.dNext, n + 1⟩) (issues .prep i ⟨.dSched, n⟩)
  | .dSched => byLane k n (.error .noSequencerRow) fun i => .ok (issues .sched i ⟨.dComp, n⟩)
  | .dComp => byLane k n (.error .noSequencerRow) fun i => .ok (issues .comp i ⟨.dTest, n⟩)
  | .fFinal =>
    byLane k n (.ok { goto ⟨.done, 0⟩ with finish := true }) fun i => .ok (issues .final i ⟨.fFinal, n + 1⟩)

/-- Run a micro-operation word: decode it, refuse by name what breaks R76 and what is no micro-operation (R78,
R81), execute the rest. -/
def issueWord (w : BitVec 16) (s : State) : Result :=
  match decode w with
  | .error _ => .refused .illegalMicroOperation
  | .ok i => if i.isCommand then .refused .commandAtIssue else exec i s

/-- `NEWDONE[i] <- 0` where the row says so, and the move to the next phase. No micro-operation reads `SEQ` but
an error writes it (R207), so the move stands first (log entry 10). -/
def SeqRow.enter (r : SeqRow) (s : State) : State :=
  (match r.clear with
    | some i => s.setNewDone i false
    | none => s).setSeq r.next

/-- The end of a row: completion where the row says so. -/
def SeqRow.leave (r : SeqRow) (a : Alg) (s : State) : State := if r.finish then s.complete a else s

/-- The word a row issues, built from `CTX` and its lane (R81). -/
def SeqRow.word (r : SeqRow) (c : CommandContext) : Option (BitVec 16) :=
  r.micro.map fun m => wordOfFields m.1 c.alg c.k m.2

/-- Take a row: its move, its word, its completion. -/
def takeRow (c : CommandContext) (r : SeqRow) (s : State) : Result :=
  match r.word c with
  | none => .next (r.leave c.alg (r.enter s))
  | some w => andThen (issueWord w (r.enter s)) fun t => .next (r.leave c.alg t)

/-- One sequencer step (R182): the row of the phase, for the latched command. -/
def sequencerStep (s : State) : Result :=
  withValue .ctx s.ctx fun c =>
    match seqRow c.k s with
    | .error e => .fault e
    | .ok r => takeRow c r s

/-- The core's own step: the sequencer's while a command runs; in `IDLE`, `DONE` and `FAILED` it has none and the
core stays as it is (R182; log entry 7). -/
def coreStep (s : State) : Result := if s.seq.phase.terminal then .next s else sequencerStep s

end Sys2Proof.Machine
end

