-- ==== Sys2Proof/Machine/HostPort.lean ====
section
/-! DEFINITION. The host's side (10_state rules R38 to R40, 70_reset_and_hazards rules R220 to R230): register
reads and writes, the source and digest spaces, the reset input. -/

namespace Sys2Proof.Machine

/-- `CAP` (R38): bit 0 `CAP128`, bit 1 `CAP256`, bit 2 `HOST_LE`, hardwired from the parameters. -/
def capWord (p : Params) : BitVec 16 :=
  ((BitVec.ofBool p.hostLe).setWidth 16 <<< 2) ||| ((BitVec.ofBool p.cap256).setWidth 16 <<< 1)
    ||| (BitVec.ofBool p.cap128).setWidth 16

/-- The lane whose descriptor is register `n`, `0x10 .. 0x17` (R39, R40). -/
def descriptorLane (n : Nat) : Option Lane := if h : n - 16 < 8 then if 16 ≤ n then some ⟨n - 16, h⟩ else none else none

/-- A host move that is not allowed while `STATE = BUSY` (R226, R228). -/
def whenNotBusy (s : State) (r : Result) : Result := if s.busy then .refused .hostWhileBusy else r

/-- The host reads `v` from a register or space; no read has another effect (R58). -/
def State.give (s : State) {n : Nat} (v : BitVec n) : State := { s with hostData := some (v.setWidth 64) }

/-- A host write of `CMD` (R170, R85): the word is latched for read-back, and a legal command's is accepted; an
illegal word, or a micro-operation's, fails with IllegalCommand (R78, R79). -/
def writeCommand (w : BitVec 16) (s : State) : Result :=
  if s.busy then .refused .commandWhileBusy
  else
    let s1 := { s with cmd := some w }
    match decode w with
    | .error _ => .next (rejectCommand s1)
    | .ok i => if i.isCommand then exec i s1 else .next (rejectCommand s1)

/-- A host register write (R40). A write of `CAP` is ignored (R38). -/
def writeRegister (n : Nat) (v : BitVec 64) (s : State) : Result :=
  if n = 0 then writeCommand (v.setWidth 16) s
  else if n = 1 ∨ n = 3 then .refused (.readOnlyRegister n)
  else if n = 2 then whenNotBusy s (.next s)
  else
    match descriptorLane n with
    | some i => whenNotBusy s (.next { s with srcDesc := s.srcDesc.set i (some v) })
    | none => .refused (.noSuchRegister n)

/-- A host register read (R40): `STATUS` at any time; `CMD`, `CAP` and the descriptors only when not `BUSY` (R63, R228);
`OUTLEN` has a value for the host only when `STATE = DONE`, and a read of it in any other state, `BUSY` included, is a
read of "no value" (R37, R44, R229, 93 U10). -/
def readRegister (n : Nat) (s : State) : Result :=
  if n = 1 then .next (s.give s.status)
  else if n = 0 then whenNotBusy s (withValue .cmd s.cmd fun v => .next (s.give v))
  else if n = 2 then whenNotBusy s (.next (s.give (capWord s.params)))
  else if n = 3 then
    withValue .outLen (if s.isDone then s.outLen else none) fun v => .next (s.give v)
  else
    match descriptorLane n with
    | some i => whenNotBusy s (withValue (.sourceDescriptor i) s.srcDesc[i] fun v => .next (s.give v))
    | none => .refused (.noSuchRegister n)

/-- The byte `OUT[i][p]` as the host may read it: only when `STATE = DONE`, `i < CTX.K` and `p < OUTLEN` (R37, R44,
R230). -/
def outByte? (s : State) (i : Lane) (p : Nat) : Option Byte :=
  match s.isDone, s.ctx, s.outLen, s.out[i] with
  | true, some c, some n, some bytes => if i.val < c.k.lanes ∧ p < n.toNat then bytes[p]? else none
  | _, _, _, _ => none

/-- The host reads a byte of `OUT[i]` (R37, R230); in every state but `DONE`, `BUSY` included, a read of "no value"
(R229, 93 U10). -/
def readOutByte (i : Lane) (p : Nat) (s : State) : Result :=
  withValue (.out i) (outByte? s i p) fun v => .next (s.give v)

/-- The host changes a byte of `SRC[i]` (R228); there is no byte beyond the 61-bit offsets (R50). -/
def writeSourceByte (i : Lane) (p : Nat) (b : Byte) (s : State) : Result :=
  whenNotBusy s (if p < sourceSpace then .next { s with src := writeByte s.src (sourceAddress i p) b }
    else .fault (.sourceOffset i))

/-- Reset (R220), at any time: every element of the core as R45 says; the parameters, the host's sources and the
host's moves to come are not the core's and stay (log entry 11). -/
def State.applyReset (s : State) : State :=
  { State.resetWith s.params with src := s.src, host := s.host, hostData := s.hostData }

/-- The host's move `m`, in a state whose list of moves is `m :: rest`. -/
def hostStep (m : HostMove) (rest : List HostMove) (s : State) : Result :=
  match m with
  | .writeReg n v => writeRegister n v { s with host := rest }
  | .readReg n => readRegister n { s with host := rest }
  | .writeSource i p b => writeSourceByte i p b { s with host := rest }
  | .readOut i p => readOutByte i p { s with host := rest }
  | .reset => .next (State.applyReset { s with host := rest })
  | .pass => coreStep { s with host := rest }
  | .await => if s.seq.phase.terminal then .next { s with host := rest } else coreStep s

/-- Fill in absent descriptors (`PRESENT = 0`, R84 (a)) for the lanes of a call that have none yet. -/
def fillDescriptors : List Lane → PerLane (Option (BitVec 64)) → PerLane (Option (BitVec 64))
  | [], d => d
  | i :: rest, d => fillDescriptors rest (d.set i (some (d[i].getD 0)))

end Sys2Proof.Machine
end

