-- ==== Sys2Proof/Machine/Step.lean ====
section
/-! DEFINITION. The step of the machine: the word at the issue point if one was placed there, else the host's next
move, else the core's own step. -/

namespace Sys2Proof.Machine

/-- One step (R182, R228): deterministic, since the next mover stands in the state. -/
def step (s : State) : Host.Outcome State Fault Refusal :=
  match s.issue with
  | some w => issueWord w { s with issue := none }
  | none =>
    match s.host with
    | m :: rest => hostStep m rest s
    | [] => coreStep s

/-- `s` with a word placed where the next step runs it (log entry 5): a host command is written to `CMD` by the
host's next move, with absent descriptors where its lanes have none (R170, R225); every other word stands at the
sequencer's issue point. -/
def State.withFetchWord (s : State) (nbits w : Nat) : State :=
  match decodeTableWord nbits w with
  | some i =>
    if i.isCommand then
      { s with
        issue := none
        host := .writeReg 0 (BitVec.ofNat 64 (w % 2 ^ nbits)) :: s.host
        srcDesc := fillDescriptors i.fields.k.laneList s.srcDesc }
    else { s with issue := some (BitVec.ofNat 16 (w % 2 ^ nbits)) }
  | none => { s with issue := some (BitVec.ofNat 16 (w % 2 ^ nbits)) }

end Sys2Proof.Machine
end

