-- ==== Sys2Proof/Machine/Asm.lean ====
section
/-! DEFINITION. The written form of a word (30_encoding rule R83): `MNEMONIC.ALG[.Kn] [lane]`. -/

namespace Sys2Proof

/-- The mnemonic (R71). -/
def Op.name : Op → String
  | .hash => "HASH"
  | .hashpar => "HASHPAR"
  | .inits => "INITS"
  | .initl => "INITL"
  | .prep => "PREP"
  | .sched => "SCHED"
  | .comp => "COMP"
  | .pack => "PACK"
  | .compl => "COMPL"
  | .snap => "SNAP"
  | .final => "FINAL"

/-- The algorithm's name (R72). -/
def Alg.name : Alg → String
  | .md5 => "MD5"
  | .sha1 => "SHA1"
  | .sha224 => "SHA224"
  | .sha256 => "SHA256"
  | .sha384 => "SHA384"
  | .sha512 => "SHA512"

/-- `.K2`, `.K4` or `.K8`; nothing when K = 1 (R83). -/
def LaneCount.suffix : LaneCount → String
  | .k1 => ""
  | .k2 => ".K2"
  | .k4 => ".K4"
  | .k8 => ".K8"

/-- The lane operand in decimal (R83). -/
def Lane.name (i : Lane) : String := ["0", "1", "2", "3", "4", "5", "6", "7"].getD i.val ""

/-- The operation has a lane operand (R74). -/
def Op.hasLane : Op → Bool
  | .inits | .prep | .sched | .comp | .snap | .final => true
  | .hash | .hashpar | .initl | .pack | .compl => false

/-- The written form (R83). -/
def Instr.asm (i : Instr) : String :=
  i.fields.op.name ++ "." ++ i.fields.alg.name ++ i.fields.k.suffix ++
    (if i.fields.op.hasLane then " " ++ Lane.name i.fields.lane else "")

end Sys2Proof
end

