-- ==== Sys2Proof/Safety.lean ====
section
/-! DEFINITION. What the claims about the machine speak of: the invariants of the state, the readiness of a
running command (10_state rule R44: no command reads an element without value), the digest of a message as
the rules define it, and what two runs with different source contents have in common. -/

namespace Sys2Proof.Machine

/-! ### Invariants -/

/-- The invariants of one StreamContext: the lengths of R24, R25 (b), R25 (d). -/
def StreamContext.Ok (c : StreamContext) : Prop :=
  c.len.toNat ≤ maxLen ∧ c.bitLen = 8 * c.len ∧ c.cur.toNat ≤ c.len.toNat ∧
    (c.ph = .markerWritten → c.cur = c.len)

/-- `STATUS` says what `SEQ` does: `IDLE`, `DONE` and `FAILED` in the terminal phases, `BUSY` in all others, with
`ERR` non-zero exactly in `FAILED` and 15:8 zero (R21, R171, R182, R207). -/
def State.StatusOk (s : State) : Prop :=
  match s.seq.phase with
  | .idle => s.status = statusWord .idle 0 0
  | .done => s.status = statusWord .done 0 0
  | .failed => ∃ e : CoreError, s.status = statusWord .failed e.err e.info
  | _ => s.status = statusWord .busy 0 0

/-- The invariant every step keeps: the canonical form of the sources, `STATUS` against `SEQ`, the lane index in
`0 .. 8` (R22), and every StreamContext's invariants (R25). -/
def State.Inv (s : State) : Prop :=
  Memory.wf s.src = true ∧ s.StatusOk ∧ s.seq.lane ≤ 8 ∧
    ∀ (i : Lane) (c : StreamContext), s.sc[i] = some c → c.Ok

/-- The order of the phases of a stream (R25 (c)). -/
def StreamPhase.rank : StreamPhase → Nat
  | .active => 0
  | .markerWritten => 1
  | .done => 2

/-! ### Readiness of a running command -/

/-- Stream `i` is `Done`. -/
def State.streamDone (s : State) (i : Lane) : Prop := (s.sc[i]).map StreamContext.ph = some .done

/-- `BLK[i]` holds a block of `B` bytes. -/
def State.blockReady (s : State) (a : Alg) (i : Lane) : Prop := (s.blk[i]).map List.length = some a.blockBytes

/-- `DIG[i]` holds `NW` words of `w` bits. -/
def State.digestReady (s : State) (a : Alg) (i : Lane) : Prop :=
  ((s.dig[i]).bind (wordsOf a.width a.stateWords)).isSome = true

/-- `W` holds `S` words of `w` bits. -/
def State.scheduleReady (s : State) (a : Alg) : Prop :=
  (s.w.bind (wordsOf a.width a.steps)).isSome = true

/-- `LS` holds `NW` vectors of K words. -/
def State.laneStateReady (s : State) (a : Alg) (k : LaneCount) : Prop :=
  (s.ls.bind (vectorsOf a.width a.stateWords k.lanes)).isSome = true

/-- `LW` holds `S` vectors of K words. -/
def State.laneScheduleReady (s : State) (a : Alg) (k : LaneCount) : Prop :=
  (s.lw.bind (vectorsOf a.width a.steps k.lanes)).isSome = true

/-- Every lane of the call is framed for this round: its block stands, its `NEWDONE` is written, and a `Done`
lane's state is captured or about to be (R176 to R178). -/
def State.roundFramed (s : State) (a : Alg) (k : LaneCount) : Prop :=
  ∀ i : Lane, i.val < k.lanes →
    s.blockReady a i ∧ s.newDone[i] ≠ none ∧
      (s.streamDone i → s.newDone[i] = some true ∨ s.digestReady a i)

/-- The downgrade has finished the lanes below `n`, and every `Done` lane's state is captured (R180, R181). -/
def State.downgraded (s : State) (a : Alg) (k : LaneCount) (n : Nat) : Prop :=
  ∀ i : Lane, i.val < k.lanes →
    (s.streamDone i → s.digestReady a i) ∧ (i.val < n → s.streamDone i)

/-- What the current phase of a call is going to read holds a value of the right shape (R44, R224). -/
def State.phaseReady (s : State) (a : Alg) (k : LaneCount) : Prop :=
  let n := s.seq.lane
  match s.seq.phase with
  | .idle | .done | .failed => False
  | .sInit => k = .k1
  | .sTest => k = .k1 ∧ s.digestReady a 0
  | .sSched => k = .k1 ∧ s.digestReady a 0 ∧ s.blockReady a 0
  | .sComp => k = .k1 ∧ s.digestReady a 0 ∧ s.scheduleReady a
  | .sFinal => k = .k1 ∧ s.digestReady a 0
  | .pInit => laneCountLegal a k = true ∧ ∀ i : Lane, i.val < k.lanes → ¬ s.streamDone i
  | .pPrep =>
    laneCountLegal a k = true ∧ s.laneStateReady a k ∧ n ≤ k.lanes ∧
      ∀ i : Lane, i.val < k.lanes →
        (i.val < n → s.blockReady a i ∧ s.newDone[i] ≠ none ∧
          (s.streamDone i → s.newDone[i] = some true ∨ s.digestReady a i)) ∧
        (n ≤ i.val → s.streamDone i → s.blockReady a i ∧ s.digestReady a i)
  | .pPack => laneCountLegal a k = true ∧ s.laneStateReady a k ∧ s.roundFramed a k
  | .pCompl =>
    laneCountLegal a k = true ∧ s.laneStateReady a k ∧ s.roundFramed a k ∧ s.laneScheduleReady a k
  | .pSnap =>
    laneCountLegal a k = true ∧ s.laneStateReady a k ∧ n ≤ k.lanes ∧
      ∀ i : Lane, i.val < k.lanes →
        s.blockReady a i ∧ s.newDone[i] ≠ none ∧
          (s.streamDone i → s.digestReady a i ∨ (n ≤ i.val ∧ s.newDone[i] = some true))
  | .pTest =>
    laneCountLegal a k = true ∧ s.laneStateReady a k ∧
      ∀ i : Lane, i.val < k.lanes → s.blockReady a i ∧ (s.streamDone i → s.digestReady a i)
  | .dNext => laneCountLegal a k = true ∧ s.laneStateReady a k ∧ n ≤ k.lanes ∧ s.downgraded a k n
  | .dTest =>
    laneCountLegal a k = true ∧ s.laneStateReady a k ∧ s.downgraded a k n ∧
      ∃ i : Lane, i.val = n ∧ i.val < k.lanes ∧ s.digestReady a i
  | .dSched =>
    laneCountLegal a k = true ∧ s.laneStateReady a k ∧ s.downgraded a k n ∧
      ∃ i : Lane, i.val = n ∧ i.val < k.lanes ∧ s.digestReady a i ∧ s.blockReady a i
  | .dComp =>
    laneCountLegal a k = true ∧ s.laneStateReady a k ∧ s.downgraded a k n ∧
      ∃ i : Lane, i.val = n ∧ i.val < k.lanes ∧ s.digestReady a i ∧ s.scheduleReady a
  | .fFinal =>
    laneCountLegal a k = true ∧ n ≤ k.lanes ∧
      ∀ i : Lane, i.val < k.lanes → s.streamDone i ∧ s.digestReady a i

/-- A command is running and every element it is going to read holds a value (R31, R44, R224). -/
def State.Ready (s : State) : Prop :=
  s.status = statusWord .busy 0 0 ∧
    ∃ a k, s.ctx = some ⟨a, k⟩ ∧
      (∀ i : Lane, i.val < k.lanes → ∃ c, s.sc[i] = some c ∧ c.Ok) ∧ s.phaseReady a k

/-- Neither the host nor a trace checker acts: the next step is the core's own. -/
def State.Quiet (s : State) : Prop := s.issue = none ∧ s.host = []

/-! ### The digest of a message -/

/-- `NB(LEN)`, the number of blocks of a message (R99). -/
def blockCount (a : Alg) (len : Nat) : Nat := (len + a.lengthRoom) / a.blockBytes + 1

/-- `n` times `PREP i`, one after the other: the blocks they leave in `BLK[i]`, in call order, and the last state;
no answer when one of them stops or leaves no block (R99, R100). -/
def prepRun (a : Alg) (k : LaneCount) (i : Lane) : Nat → State → Option (List (List Byte) × State)
  | 0, s => some ([], s)
  | n + 1, s =>
    match exec (.ofFields .prep a k i) s with
    | .next t =>
      match t.blk[i], prepRun a k i n t with
      | some b, some (bs, u) => some (b :: bs, u)
      | _, _ => none
    | .fault _ => none
    | .refused _ => none

/-- `n` steps of the core, nothing else moving; it stops at the first fault or refusal. -/
def runCore : Nat → State → Result
  | 0, s => .next s
  | n + 1, s => andThen (coreStep s) (runCore n)

/-- The zero bytes between the marker and the length field (R100): the least count from `LF - 8` on that makes
the total a multiple of `B`. -/
def paddingZeros (a : Alg) (len : Nat) : Nat :=
  a.lengthRoom - 8 + (a.blockBytes - (len + 1 + a.lengthRoom) % a.blockBytes) % a.blockBytes

/-- The padded message (R100). -/
def padded (a : Alg) (msg : List Byte) : List Byte :=
  msg ++ 0x80 :: List.replicate (paddingZeros a msg.length) 0x00 ++
    bytesOfWord a.order 8 (BitVec.ofNat 64 (8 * msg.length))

/-- The first `n` blocks of `B` bytes of a byte string. -/
def chunks (B : Nat) : Nat → List Byte → List (List Byte)
  | 0, _ => []
  | n + 1, bs => bs.take B :: chunks B n (bs.drop B)

/-- One block folded into a state: `Compress(H, SCHED(block))` (R131, R136). -/
def absorb (a : Alg) (h : List (Word a.width)) (blk : List Byte) : List (Word a.width) :=
  compress a.family (scalarUnit a.width.bits) h (scheduleOf a blk)

/-- The digest of a message: the blocks of the padded message folded from `IV`, serialised (R100, R130, R131,
R136, R195). -/
def digest (a : Alg) (msg : List Byte) : List Byte :=
  digestOfState a
    ((chunks a.blockBytes (blockCount a msg.length) (padded a msg)).foldl (absorb a) a.iv)

/-- The message a descriptor presents in lane `i` (R39, R50, R172). -/
def sourceMessage (m : Memory) (i : Lane) (d : BitVec 64) : List Byte :=
  sourceBytes m i 0 (descLength d).toNat

/-! ### Numbers the rules compute with, spelled without the model's own functions -/

/-- Byte number `n` of a byte string, as a number. -/
def byteAt (bs : List Byte) (n : Nat) : Nat := (bs.getD n 0).toNat

/-- Byte `q` of the length field of R94: the most significant byte first, or for MD5 the least. -/
def lengthByte (a : Alg) (bitLen : BitVec 64) (q : Nat) : Byte :=
  if a = .md5 then (bitLen >>> (8 * q)).setWidth 8 else (bitLen >>> (8 * (7 - q))).setWidth 8

/-- `SRC_DESC` keeps the two bits above the length zero where a source is present (R39). -/
def descriptorOk (d : BitVec 64) : Prop := d.getLsbD 63 = true → d.extractLsb' 61 2 = 0

/-- The StreamContext of R172, from a descriptor. -/
def streamAtConstruction (d : BitVec 64) : StreamContext where
  len := if d.getLsbD 63 then d &&& 0x1FFFFFFFFFFFFFFF else 0
  bitLen := 8 * (if d.getLsbD 63 then d &&& 0x1FFFFFFFFFFFFFFF else 0)
  cur := 0
  ph := .active

/-- The whole part of the `e`-th root of `p`, below 9. -/
def rootWhole (e p : Nat) : Nat := ((List.range 9).filter fun n => n ^ e ≤ p).length - 1

/-- `x` is the first `N` bits of the fractional part of the `e`-th root of `p` (R123): with `n` the root's whole
part, `n < 9`, `(n * 2^N + x)^e <= p * 2^(N*e) < (n * 2^N + x + 1)^e`. -/
def isRootFraction (e N p x : Nat) : Bool :=
  let n := rootWhole e p
  decide ((n * 2 ^ N + x) ^ e ≤ p * 2 ^ (N * e)) && decide (p * 2 ^ (N * e) < (n * 2 ^ N + x + 1) ^ e) &&
    decide (x < 2 ^ N) && decide (p < 9 ^ e)

/-- The first 80 primes, 2 .. 409 (R121). -/
def primes80 : List Nat :=
  [2, 3, 5, 7, 11, 13, 17, 19, 23, 29, 31, 37, 41, 43, 47, 53, 59, 61, 67, 71] ++
  [73, 79, 83, 89, 97, 101, 103, 107, 109, 113, 127, 131, 137, 139, 149, 151, 157, 163, 167, 173] ++
  [179, 181, 191, 193, 197, 199, 211, 223, 227, 229, 233, 239, 241, 251, 257, 263, 269, 271, 277, 281] ++
  [283, 293, 307, 311, 313, 317, 331, 337, 347, 349, 353, 359, 367, 373, 379, 383, 389, 397, 401, 409]

/-! ### Words, legal and illegal -/

/-- A word that keeps a row of the table R76, read off the word as a number. -/
def legalWord (w : Nat) : Bool :=
  let op := w % 16
  let alg := w / 16 % 8
  let ksel := w / 128 % 4
  let lane := w / 512 % 8
  let wide := if alg ≤ 3 then ksel == 2 || ksel == 3 else ksel == 1 || ksel == 2
  w / 4096 == 0 && decide (alg ≤ 5) &&
    (op == 1 && ksel == 0 && lane == 0 ||
      op == 2 && wide && lane == 0 ||
      (op == 3 || op == 5 || op == 6 || op == 7 || op == 11) && (ksel == 0 || wide) && decide (lane < 2 ^ ksel) ||
      (op == 4 || op == 8 || op == 9) && wide && lane == 0 ||
      op == 10 && wide && decide (lane < 2 ^ ksel))

/-- A word written to `CMD` is illegal (R79), read off the word as a number. -/
def illegalFromHost (w : Nat) : Bool :=
  let op := w % 16
  let alg := w / 16 % 8
  let ksel := w / 128 % 4
  let lane := w / 512 % 8
  w / 4096 != 0 || op == 0 || decide (12 ≤ op) || decide (3 ≤ op ∧ op ≤ 11) || decide (6 ≤ alg) ||
    (op == 1 && ksel != 0) ||
    (op == 2 && (ksel == 0 || (decide (alg ≤ 3) && ksel == 1) || (decide (4 ≤ alg) && ksel == 3))) ||
    lane != 0

/-! ### What the host can learn -/

/-- Two host reads have the same outcome: the same value in the host's hand, the same fault, or the same refusal. -/
def SameOutcome : Result → Result → Prop
  | .next u, .next v => u.hostData = v.hostData
  | .fault e, .fault e' => e = e'
  | .refused e, .refused e' => e = e'
  | _, _ => False

/-! ### What the source contents cannot change -/

/-- The word the sequencer issues in its next step, if any (R81, R182). -/
def issuedWord (s : State) : Option (BitVec 16) :=
  match s.ctx with
  | none => none
  | some c =>
    match seqRow c.k s with
    | .ok r => r.word c
    | .error _ => none

/-- Two states with the same control and the same stream lengths and cursors, whatever their data (R219). -/
def SameControl (s t : State) : Prop :=
  s.params = t.params ∧ s.status = t.status ∧ s.seq = t.seq ∧ s.ctx = t.ctx ∧ s.sc = t.sc ∧
    s.newDone = t.newDone

end Sys2Proof.Machine
end

