-- ==== Sys2Proof/Certificates/Slice0/Obligations.lean ====
section
/-! DEFINITION. The statements for the provers. Where one speaks of `Instr.ofFields op a k i` it speaks of the
constructor of that operation and algorithm, for every algorithm `a` it quantifies over; an equation
`exec ... = .next { s with ... }` is the instruction's frame too: every field not named is unchanged. -/

open Sys2Proof Sys2Proof.Machine

/-! ## Encoding -/

/-- Every well-formed instruction is decoded from its own word, with every operand it has; and a word that is decoded
is the word of that well-formed instruction and of no other. -/
def Obligations.DecodeEncodeRoundTrip : Prop :=
  (∀ i : Instr, i.wf = true → decode (encode i) = .ok i) ∧
  (∀ (w : BitVec 16) (i : Instr), decode w = .ok i → i.wf = true ∧ encode i = w)

/-- R76: a word is decoded exactly when it keeps a row of the field table, read off the word as a number. -/
def Obligations.DecoderKeepsFieldTable : Prop :=
  ∀ w : BitVec 16, legalWord w.toNat = true ↔ ∃ i, decode w = .ok i

/-- R80: exactly 18 words are the host's commands; the all-zero and the all-ones word are illegal. -/
def Obligations.HostCommandWords : Prop :=
  (∀ w : BitVec 16, (∃ i, decode w = .ok i ∧ i.isCommand = true) ↔
    w.toNat ∈ [0x0001, 0x0011, 0x0021, 0x0031, 0x0041, 0x0051,
      0x0102, 0x0112, 0x0122, 0x0132, 0x0182, 0x0192, 0x01A2, 0x01B2,
      0x00C2, 0x00D2, 0x0142, 0x0152]) ∧
  (∀ i, decode 0x0000 ≠ .ok i) ∧ (∀ i, decode 0xFFFF ≠ .ok i)

/-- R82, R83: words written out from the encoding tables, at least one for each operation, and written forms. -/
def Obligations.DecodedExamples : Prop :=
  decode 0x0031 = .ok .hashSha256 ∧
  decode 0x0132 = .ok (.hashparSha256 .k4) ∧
  decode 0x00D2 = .ok (.hashparSha512 .k2) ∧
  decode 0x0013 = .ok (.initsSha1 .k1 0) ∧
  decode 0x0144 = .ok (.initlSha384 .k4) ∧
  decode 0x0735 = .ok (.prepSha256 .k4 3) ∧
  decode 0x0526 = .ok (.schedSha224 .k4 2) ∧
  decode 0x0037 = .ok (.compSha256 .k1 0) ∧
  decode 0x0138 = .ok (.packSha256 .k4) ∧
  decode 0x0189 = .ok (.complMd5 .k8) ∧
  decode 0x0F8A = .ok (.snapMd5 .k8 7) ∧
  decode 0x02DB = .ok (.finalSha512 .k2 1) ∧
  Instr.asm .hashMd5 = "HASH.MD5" ∧
  Instr.asm (.hashparSha1 .k8) = "HASHPAR.SHA1.K8" ∧
  Instr.asm (.prepSha512 .k2 1) = "PREP.SHA512.K2 1" ∧
  Instr.asm (.compSha256 .k1 0) = "COMP.SHA256 0" ∧
  Instr.asm (.packSha256 .k4) = "PACK.SHA256.K4"

/-- R81: every word the sequencer issues for a running command is a legal micro-operation's; a word that breaks
R76 is refused by name at the issue point (the model's own, log entry 5), and so is an instruction term that breaks it (log
entry 17). -/
def Obligations.IllegalMicroOperationRefused : Prop :=
  (∀ (s : State) (w : BitVec 16), s.Ready → issuedWord s = some w →
    ∃ i, decode w = .ok i ∧ i.isCommand = false) ∧
  (∀ (s : State) (w : BitVec 16), s.issue = some w → legalWord w.toNat = false →
    step s = .refused .illegalMicroOperation) ∧
  (∀ (i : Instr) (s : State), i.isCommand = false → i.wf = false →
    exec i s = .refused .illegalMicroOperation)

/-! ## A step runs the decoded instruction -/

/-- The word at the issue point, the host's write of `CMD`, and the sequencer's own word: in each of the three ways a
word comes to run, the step is `exec` of the instruction the word decodes to. (The issue point is log entry 5, the list of
the host's moves log entry 4, the row's move before the micro-operation log entry 10.) -/
def Obligations.StepRunsDecodedInstruction : Prop :=
  (∀ (s : State) (w : BitVec 16) (i : Instr), s.issue = some w → decode w = .ok i → i.isCommand = false →
    step s = exec i { s with issue := none }) ∧
  (∀ (s : State) (v : BitVec 64) (rest : List HostMove) (i : Instr), s.issue = none →
    s.host = .writeReg 0 v :: rest → decode (v.setWidth 16) = .ok i → i.isCommand = true → s.busy = false →
    step s = exec i { s with host := rest, cmd := some (v.setWidth 16) }) ∧
  (∀ (s : State) (c : CommandContext) (r : SeqRow) (m : Op × Lane) (i : Instr), s.Quiet →
    s.seq.phase.terminal = false → s.ctx = some c → seqRow c.k s = .ok r → r.micro = some m →
    decode (wordOfFields m.1 c.alg c.k m.2) = .ok i → i.isCommand = false →
    step s = andThen (exec i (r.enter s)) fun t => .next (r.leave c.alg t))

/-! ## Reset and the host's side -/

/-- R45: every element after reset, for every setting of the parameters, and the refusal of a command before its
descriptor is written. -/
def Obligations.ResetValues : Prop :=
  ∀ p : Params, let s := State.resetWith p
    s.status = 0x0000 ∧ statusState s.status = 0 ∧ statusErr s.status = 0 ∧ statusInfo s.status = 0 ∧
    s.seq = ⟨.idle, 0⟩ ∧ s.cmd = none ∧ s.ctx = none ∧ s.w = none ∧ s.lw = none ∧ s.ls = none ∧
    s.outLen = none ∧
    (∀ i : Lane, s.sc[i] = none ∧ s.newDone[i] = none ∧ s.blk[i] = none ∧ s.dig[i] = none ∧ s.out[i] = none ∧
      s.srcDesc[i] = none) ∧
    readRegister 2 s = .next (s.give (capWord p)) ∧
    (∀ a : Alg, exec (.ofFields .hash a .k1 0) s = .refused (.descriptorUnwritten 0))

/-- R220: the reset input acts at any time, a running command's included. That the sources and the host's own side
stay is the model's choice (log entry 11). -/
def Obligations.ResetAtAnyTime : Prop :=
  ∀ (s : State) (rest : List HostMove), s.issue = none → s.host = .reset :: rest →
    step s = .next { State.resetWith s.params with src := s.src, host := rest, hostData := s.hostData }

/-- R38: `CAP` bit by bit, and the write that is ignored. -/
def Obligations.CapIsHardwired : Prop :=
  (∀ p : Params, (capWord p).getLsbD 0 = p.cap128 ∧ (capWord p).getLsbD 1 = p.cap256 ∧
    (capWord p).getLsbD 2 = p.hostLe ∧ ∀ n, 3 ≤ n → (capWord p).getLsbD n = false) ∧
  (∀ s : State, s.busy = false → readRegister 2 s = .next (s.give (capWord s.params))) ∧
  (∀ (s : State) (v : BitVec 64), s.busy = false → writeRegister 2 v s = .next s)

/-- R39, R40: numbers that do not exist are refused, and the two registers the host may write read back what it wrote; that
`CMD` takes the low 16 bits of a write and that a write of the read-only `STATUS` and `OUTLEN` is refused is log entry 13,
that these refusals come before the one for a running command is log entry 14. -/
def Obligations.HostRegisterMap : Prop :=
  (∀ (n : Nat) (v : BitVec 64) (s : State), (4 ≤ n ∧ n ≤ 0x0F ∨ 0x18 ≤ n) →
    readRegister n s = .refused (.noSuchRegister n) ∧ writeRegister n v s = .refused (.noSuchRegister n)) ∧
  (∀ (i : Lane) (v : BitVec 64) (s : State), s.busy = false →
    writeRegister (0x10 + i.val) v s = .next { s with srcDesc := s.srcDesc.set i (some v) } ∧
    ∀ t, writeRegister (0x10 + i.val) v s = .next t → readRegister (0x10 + i.val) t = .next (t.give v)) ∧
  (∀ (v : BitVec 64) (s t : State), writeRegister 0 v s = .next t → t.cmd = some (v.setWidth 16)) ∧
  (∀ (w : BitVec 16) (s : State), s.busy = false → s.cmd = some w → readRegister 0 s = .next (s.give w)) ∧
  (∀ s : State, readRegister 1 s = .next (s.give s.status)) ∧
  (∀ (n : Nat) (v : BitVec 64) (s : State), (n = 1 ∨ n = 3) →
    writeRegister n v s = .refused (.readOnlyRegister n))

/-- R58, R228, R50: a host read changes nothing but what the host holds in its hand (`hostData`, log entry 4); the host's
change of a source byte writes that byte of that lane, leaves every other byte of every lane, and touches nothing else
of the state; there is no byte from offset `2^61` on (addresses and the fault: log entry 3). -/
def Obligations.HostReadsAndSourceWrites : Prop :=
  (∀ (n : Nat) (s t : State), readRegister n s = .next t → t = { s with hostData := t.hostData }) ∧
  (∀ (i : Lane) (p : Nat) (s t : State), readOutByte i p s = .next t → t = { s with hostData := t.hostData }) ∧
  (∀ (s : State) (i : Lane) (p : Nat) (b : Byte) (rest : List HostMove), s.issue = none →
    s.host = .writeSource i p b :: rest → s.busy = false → Memory.wf s.src = true →
    (p < 2 ^ 61 → ∃ m : Memory, step s = .next { s with src := m, host := rest } ∧ Memory.wf m = true ∧
      readByte m (sourceAddress i p) = b ∧
      ∀ (j : Lane) (q : Nat), q < 2 ^ 61 → (j ≠ i ∨ q ≠ p) →
        readByte m (sourceAddress j q) = readByte s.src (sourceAddress j q)) ∧
    (2 ^ 61 ≤ p → step s = .fault (.sourceOffset i)))

/-- R41: no move of the host but a write of `CMD` or a reset reads or writes a private element; of these, the validity of
`OUT` looks at `CTX.K` and at nothing else (R37, R228). A read of two states that agree on what is not private has the same
outcome in both: no private element decides whether it answers. -/
def Obligations.PrivateStateIsPrivate : Prop :=
  (∀ (s t : State) (m : HostMove) (rest : List HostMove), s.issue = none → s.host = m :: rest →
    (∀ v, m ≠ .writeReg 0 v) → m ≠ .reset → m ≠ .pass → m ≠ .await → step s = .next t →
    t.seq = s.seq ∧ t.ctx = s.ctx ∧ t.sc = s.sc ∧ t.newDone = s.newDone ∧ t.blk = s.blk ∧ t.w = s.w ∧
      t.lw = s.lw ∧ t.ls = s.ls ∧ t.dig = s.dig) ∧
  (∀ (n : Nat) (s t : State), t.params = s.params → t.status = s.status → t.cmd = s.cmd → t.outLen = s.outLen →
    t.srcDesc = s.srcDesc → SameOutcome (readRegister n s) (readRegister n t)) ∧
  (∀ (i : Lane) (p : Nat) (s t : State), t.status = s.status → t.outLen = s.outLen → t.out = s.out →
    t.ctx.map CommandContext.k = s.ctx.map CommandContext.k →
    SameOutcome (readOutByte i p s) (readOutByte i p t))

/-- R37, R229, R230: `OUT[i][p]` and `OUTLEN` have a value for the host exactly when the last command is `DONE`, and then
only for `i < CTX.K` and `p < OUTLEN`; a read in any other state, while a command runs too, is a fault. -/
def Obligations.OutputValidity : Prop :=
  ∀ (s : State) (i : Lane) (p : Nat),
    (∀ (c : CommandContext) (n : BitVec 8) (bs : List Byte), s.isDone = true → s.ctx = some c →
      s.outLen = some n → s.out[i] = some bs → n.toNat ≤ bs.length → i.val < c.k.lanes → p < n.toNat →
      readOutByte i p s = .next { s with hostData := some ((bs.getD p 0).setWidth 64) } ∧
      readRegister 3 s = .next { s with hostData := some (n.setWidth 64) }) ∧
    (s.isDone = false →
      readOutByte i p s = .fault (.noValue (.out i)) ∧ readRegister 3 s = .fault (.noValue .outLen)) ∧
    (∀ (c : CommandContext), s.ctx = some c → c.k.lanes ≤ i.val →
      readOutByte i p s = .fault (.noValue (.out i))) ∧
    (∀ (n : BitVec 8), s.outLen = some n → n.toNat ≤ p → readOutByte i p s = .fault (.noValue (.out i)))

/-! ## Numbers: units, bytes, tables -/

/-- R10, R12: the unit's rotates are the rotates of bit strings, one being the other by the rest of the width, and every
vector operation is the word operation lane by lane, rotates and broadcasts included. -/
def Obligations.UnitsComputeWordOperations : Prop :=
  (∀ (w : Nat) (n : Amount w) (x : BitVec w),
    rotl (scalarUnit w) n x = (x <<< n.val ||| x >>> (w - n.val)) ∧
    rotr (scalarUnit w) n x = (x >>> n.val ||| x <<< (w - n.val)) ∧
    rotl (scalarUnit w) n x = x.rotateLeft n.val ∧
    rotr (scalarUnit w) n x = x.rotateRight n.val ∧
    rotr (scalarUnit w) n x = rotl (scalarUnit w) n.rest x) ∧
  (∀ (w K j : Nat) (n : Amount w) (x y : List (BitVec w)) (c : BitVec w), x.length = K → y.length = K → j < K →
    ((vectorUnit w K).add x y).getD j 0 = x.getD j 0 + y.getD j 0 ∧
    ((vectorUnit w K).and x y).getD j 0 = x.getD j 0 &&& y.getD j 0 ∧
    ((vectorUnit w K).or x y).getD j 0 = x.getD j 0 ||| y.getD j 0 ∧
    ((vectorUnit w K).xor x y).getD j 0 = x.getD j 0 ^^^ y.getD j 0 ∧
    ((vectorUnit w K).andnot x y).getD j 0 = ~~~(x.getD j 0) &&& y.getD j 0 ∧
    ((vectorUnit w K).not x).getD j 0 = ~~~(x.getD j 0) ∧
    ((vectorUnit w K).shl n x).getD j 0 = x.getD j 0 <<< n.val ∧
    ((vectorUnit w K).shr n x).getD j 0 = x.getD j 0 >>> n.val ∧
    (rotl (vectorUnit w K) n x).getD j 0 = (x.getD j 0).rotateLeft n.val ∧
    (rotr (vectorUnit w K) n x).getD j 0 = (x.getD j 0).rotateRight n.val ∧
    ((vectorUnit w K).broadcast c).getD j 0 = c)

/-- R52: the two conversions of each byte order, byte by byte, and that they are inverse to each other. -/
def Obligations.ByteConversions : Prop :=
  ∀ n : Nat,
    (∀ bs : List Byte, bs.length = n →
      (wordOfBytes .big (8 * n) bs).toNat = ((List.range n).map fun p => byteAt bs p * 2 ^ (8 * (n - 1 - p))).sum ∧
      (wordOfBytes .little (8 * n) bs).toNat = ((List.range n).map fun p => byteAt bs p * 2 ^ (8 * p)).sum) ∧
    (∀ (x : BitVec (8 * n)) (p : Nat), p < n →
      ((bytesOfWord .big n x).getD p 0).toNat = x.toNat / 2 ^ (8 * (n - 1 - p)) % 256 ∧
      ((bytesOfWord .little n x).getD p 0).toNat = x.toNat / 2 ^ (8 * p) % 256) ∧
    ∀ o : ByteOrder,
      (∀ x : BitVec (8 * n), (bytesOfWord o n x).length = n ∧ wordOfBytes o (8 * n) (bytesOfWord o n x) = x) ∧
      (∀ bs : List Byte, bs.length = n → bytesOfWord o n (wordOfBytes o (8 * n) bs) = bs)

/-- R109, R110, R115 to R117, R119 to R121: the tables against their closed forms; and the 64 values that R108 prints for
`K_MD5`, whose sine formula is not stated here. (`IV_MD5` and `IV_SHA1` are written out in `InitsSeedsState`, `K_SHA1` in
`CompressionOfSha1`.) -/
def Obligations.TablesMatchClosedForms : Prop :=
  kSha2x32.length = 64 ∧ kSha2x64.length = 80 ∧
  (∀ t < 64, isRootFraction 3 32 (primes80.getD t 0) (kSha2x32.getD t 0).toNat = true) ∧
  (∀ t < 80, isRootFraction 3 64 (primes80.getD t 0) (kSha2x64.getD t 0).toNat = true) ∧
  (∀ t < 64, (kSha2x32.getD t 0).toNat = (kSha2x64.getD t 0).toNat / 2 ^ 32) ∧
  (∀ k < 8, isRootFraction 2 32 (primes80.getD k 0) (ivSha256.getD k 0).toNat = true ∧
    isRootFraction 2 64 (primes80.getD k 0) (ivSha512.getD k 0).toNat = true ∧
    isRootFraction 2 64 (primes80.getD (k + 8) 0) (ivSha384.getD k 0).toNat = true ∧
    (ivSha224.getD k 0).toNat = (ivSha384.getD k 0).toNat % 2 ^ 32) ∧
  (∀ t < 64, (sMd5 t).val =
      (([[7, 12, 17, 22], [5, 9, 14, 20], [4, 11, 16, 23], [6, 10, 15, 21]].getD (t / 16) []).getD (t % 4) 0) ∧
    gMd5 t = (if t < 16 then t else if t < 32 then (5 * t + 1) % 16 else if t < 48 then (3 * t + 5) % 16
      else 7 * t % 16)) ∧
  kMd5 =
    [0xD76AA478, 0xE8C7B756, 0x242070DB, 0xC1BDCEEE,
      0xF57C0FAF, 0x4787C62A, 0xA8304613, 0xFD469501,
      0x698098D8, 0x8B44F7AF, 0xFFFF5BB1, 0x895CD7BE,
      0x6B901122, 0xFD987193, 0xA679438E, 0x49B40821] ++
    [0xF61E2562, 0xC040B340, 0x265E5A51, 0xE9B6C7AA,
      0xD62F105D, 0x02441453, 0xD8A1E681, 0xE7D3FBC8,
      0x21E1CDE6, 0xC33707D6, 0xF4D50D87, 0x455A14ED,
      0xA9E3E905, 0xFCEFA3F8, 0x676F02D9, 0x8D2A4C8A] ++
    [0xFFFA3942, 0x8771F681, 0x6D9D6122, 0xFDE5380C,
      0xA4BEEA44, 0x4BDECFA9, 0xF6BB4B60, 0xBEBFBC70,
      0x289B7EC6, 0xEAA127FA, 0xD4EF3085, 0x04881D05,
      0xD9D4D039, 0xE6DB99E5, 0x1FA27CF8, 0xC4AC5665] ++
    [0xF4292244, 0x432AFF97, 0xAB9423A7, 0xFC93A039,
      0x655B59C3, 0x8F0CCC92, 0xFFEFF47D, 0x85845DD1,
      0x6FA87E4F, 0xFE2CE6E0, 0xA3014314, 0x4E0811A1,
      0xF7537E82, 0xBD3AF235, 0x2AD7D2BB, 0xEB86D391]

/-! ## Accepting a command -/

/-- R171 to R173, R13: `HASH` (all six constructors) is accepted in every state in which no command runs, whatever the
parameters, with a descriptor that keeps its form; what the command uses of the buffers has no value, since nothing has
written it since the start of the command. (That accept drops exactly these buffers: log entry 19; that `SEQ` holds the
lane index 0 in `S_INIT`: log entry 24.) -/
def Obligations.HashAccepts : Prop :=
  ∀ (a : Alg) (s : State) (d : BitVec 64), s.busy = false → s.srcDesc[(0 : Lane)] = some d → descriptorOk d →
    exec (.ofFields .hash a .k1 0) s = .next { s with
      status := 0x0001
      out := Vector.replicate 8 none
      outLen := none
      ctx := some ⟨a, .k1⟩
      sc := s.sc.set (0 : Lane) (some (streamAtConstruction d))
      newDone := s.newDone.set (0 : Lane) (some false)
      blk := s.blk.set (0 : Lane) none
      w := none
      lw := none
      ls := none
      dig := s.dig.set (0 : Lane) none
      seq := ⟨.sInit, 0⟩ }

/-- R171, R172, R174, R13: `HASHPAR` (all six constructors) is accepted when its word is legal, the capability of its width
and the little-endian host are there, and the descriptors of its lanes keep their form; the buffers of its lanes have no
value, since nothing has written them since the start of the command, and the other lanes are as before. (Log entry 19:
which buffers; log entry 24: the lane index 0 in `P_INIT`.) -/
def Obligations.HashparAccepts : Prop :=
  ∀ (a : Alg) (k : LaneCount) (s : State) (d : Lane → BitVec 64), s.busy = false →
    (k.lanes * a.width.bits = 128 ∧ s.params.cap128 = true ∨ k.lanes * a.width.bits = 256 ∧ s.params.cap256 = true) →
    s.params.hostLe = true →
    (∀ i : Lane, i.val < k.lanes → s.srcDesc[i] = some (d i) ∧ descriptorOk (d i)) →
    exec (.ofFields .hashpar a k 0) s = .next { s with
      status := 0x0001
      out := Vector.replicate 8 none
      outLen := none
      ctx := some ⟨a, k⟩
      sc := Vector.ofFn fun i : Lane => if i.val < k.lanes then some (streamAtConstruction (d i)) else s.sc[i]
      newDone := Vector.ofFn fun i : Lane => if i.val < k.lanes then some false else s.newDone[i]
      blk := Vector.ofFn fun i : Lane => if i.val < k.lanes then none else s.blk[i]
      w := none
      lw := none
      ls := none
      dig := Vector.ofFn fun i : Lane => if i.val < k.lanes then none else s.dig[i]
      seq := ⟨.pInit, 0⟩ }

/-- R79, R85: an illegal word fails at once, whatever else holds; it latches nothing but the read-back of `CMD`, and
invalidates the last result (R171; log entry 21). The lane index 0 in `FAILED` is log entry 24. -/
def Obligations.IllegalCommandFails : Prop :=
  ∀ (w : BitVec 16) (s : State), s.busy = false → illegalFromHost w.toNat = true →
    writeCommand w s = .next { s with
      cmd := some w
      status := 0x002F
      seq := ⟨.failed, 0⟩
      out := Vector.replicate 8 none
      outLen := none }

/-- R206: the error a failing `HASHPAR` reports is the first of: illegal lane count, missing capability, big-endian
host, a descriptor too long; and what each leaves (R202, R203, R205, R207). That a term with an
illegal lane count fails as its illegal word does is log entry 17; that a length too large is reported with a higher lane's
descriptor unwritten is log entry 18; that `CTX` is latched although a legal command fails is log entry 21; the lane index 0
in `FAILED` is the model's choice, log entry 24. -/
def Obligations.ErrorPriority : Prop :=
  ∀ (a : Alg) (k : LaneCount) (s : State), s.busy = false →
    let failed (st : BitVec 16) : State := { s with
      status := st
      seq := ⟨.failed, 0⟩
      out := Vector.replicate 8 none
      outLen := none
      ctx := some ⟨a, k⟩ }
    (k.lanes * a.width.bits ≠ 128 → k.lanes * a.width.bits ≠ 256 →
      exec (.ofFields .hashpar a k 0) s = .next { failed 0x002F with ctx := s.ctx }) ∧
    (k.lanes * a.width.bits = 128 → s.params.cap128 = false →
      exec (.ofFields .hashpar a k 0) s = .next (failed 0x0027)) ∧
    (k.lanes * a.width.bits = 256 → s.params.cap256 = false →
      exec (.ofFields .hashpar a k 0) s = .next (failed 0x0047)) ∧
    (k.lanes * a.width.bits = 128 ∧ s.params.cap128 = true ∨ k.lanes * a.width.bits = 256 ∧ s.params.cap256 = true →
      s.params.hostLe = false → exec (.ofFields .hashpar a k 0) s = .next (failed 0x002B)) ∧
    (k.lanes * a.width.bits = 128 ∧ s.params.cap128 = true ∨ k.lanes * a.width.bits = 256 ∧ s.params.cap256 = true →
      s.params.hostLe = true →
      ∀ (i : Lane) (d : BitVec 64), i.val < k.lanes → (∀ j : Lane, j.val < i.val → s.srcDesc[j] ≠ none) →
        s.srcDesc[i] = some d → ¬ descriptorOk d →
        exec (.ofFields .hashpar a k 0) s = .next (failed 0x004F))

/-- R205, R171 for `HASH` (all six constructors): the length check is its only failure besides the decoder's. That `CTX` is
latched although the command fails is log entry 21; the lane index 0 in `FAILED` is log entry 24. -/
def Obligations.HashLengthTooLarge : Prop :=
  ∀ (a : Alg) (s : State) (d : BitVec 64), s.busy = false → s.srcDesc[(0 : Lane)] = some d → ¬ descriptorOk d →
    exec (.ofFields .hash a .k1 0) s = .next { s with
      status := 0x004F
      seq := ⟨.failed, 0⟩
      out := Vector.replicate 8 none
      outLen := none
      ctx := some ⟨a, .k1⟩ }

/-- R225 to R229: the ways in which the host breaks its contract. A command written while another runs and a command whose
descriptor was never written are each refused by name (log entry 18: the lowest such lane is named); while a command runs
every move of the host but a read is refused, as is a read of anything but `STATUS`, `OUTLEN` and `OUT` (log entry 14), and
the read of `OUTLEN` or of a byte of `OUT` is a fault. (The reset input, passing and waiting are no moves of the host upon
the core.) -/
def Obligations.HostContractRefusals : Prop :=
  (∀ (s : State) (m : HostMove) (rest : List HostMove), s.issue = none → s.host = m :: rest → s.busy = true →
    m ≠ .readReg 1 → m ≠ .readReg 3 → (∀ (i : Lane) (p : Nat), m ≠ .readOut i p) →
    m ≠ .reset → m ≠ .pass → m ≠ .await → ∃ e, step s = .refused e) ∧
  (∀ (s : State) (rest : List HostMove), s.issue = none → s.busy = true →
    (s.host = .readReg 3 :: rest → step s = .fault (.noValue .outLen)) ∧
    ∀ (i : Lane) (p : Nat), s.host = .readOut i p :: rest → step s = .fault (.noValue (.out i))) ∧
  (∀ (v : BitVec 64) (s : State), s.busy = true → writeRegister 0 v s = .refused .commandWhileBusy) ∧
  (∀ (a : Alg) (s : State), s.busy = false → s.srcDesc[(0 : Lane)] = none →
    exec (.ofFields .hash a .k1 0) s = .refused (.descriptorUnwritten 0)) ∧
  (∀ (a : Alg) (k : LaneCount) (s : State) (i : Lane), s.busy = false →
    (k.lanes * a.width.bits = 128 ∧ s.params.cap128 = true ∨ k.lanes * a.width.bits = 256 ∧ s.params.cap256 = true) →
    s.params.hostLe = true → i.val < k.lanes → s.srcDesc[i] = none →
    (∀ (j : Lane), j.val < i.val → ∃ d, s.srcDesc[j] = some d ∧ descriptorOk d) →
    exec (.ofFields .hashpar a k 0) s = .refused (.descriptorUnwritten i))

/-! ## The framer -/

/-- R91: `PREP` (all six constructors) of a full block. -/
def Obligations.PrepFullBlock : Prop :=
  ∀ (a : Alg) (k : LaneCount) (i : Lane) (s : State) (c : StreamContext), formOk .prep a k i = true →
    s.sc[i] = some c → c.ph = .active → c.len.toNat ≤ maxLen → c.cur.toNat + a.blockBytes ≤ c.len.toNat →
    exec (.ofFields .prep a k i) s = .next { s with
      blk := s.blk.set i (some ((List.range a.blockBytes).map fun p =>
        readByte s.src (i.val * 2 ^ 61 + (c.cur.toNat + p))))
      sc := s.sc.set i (some { c with cur := c.cur + BitVec.ofNat 64 a.blockBytes })
      newDone := s.newDone.set i (some false) }

/-- R93, R94: `PREP` (all six constructors) of the last message bytes, with the marker, and the length field where the
tail has room for it. -/
def Obligations.PrepLastBytes : Prop :=
  ∀ (a : Alg) (k : LaneCount) (i : Lane) (s : State) (c : StreamContext) (r : Nat), formOk .prep a k i = true →
    s.sc[i] = some c → c.ph = .active → c.len.toNat ≤ maxLen → c.cur.toNat + r = c.len.toNat → 0 < r →
    r < a.blockBytes →
    ∃ b : List Byte,
      let room := decide (a.lengthRoom ≤ a.blockBytes - r - 1)
      exec (.ofFields .prep a k i) s = .next { s with
        blk := s.blk.set i (some b)
        sc := s.sc.set i (some { c with cur := c.len, ph := if room then .done else .markerWritten })
        newDone := s.newDone.set i (some room) } ∧
      b.length = a.blockBytes ∧
      (∀ p < r, b.getD p 0 = readByte s.src (i.val * 2 ^ 61 + (c.cur.toNat + p))) ∧
      b.getD r 0 = 0x80 ∧
      (∀ p, r < p → p < a.blockBytes - 8 → b.getD p 0 = 0x00) ∧
      (room = true → ∀ q < 8, b.getD (a.blockBytes - 8 + q) 0 = lengthByte a c.bitLen q) ∧
      (room = false → ∀ p, r < p → p < a.blockBytes → b.getD p 0 = 0x00)

/-- R95, R94: `PREP` (all six constructors) of a block of padding only. -/
def Obligations.PrepPadding : Prop :=
  ∀ (a : Alg) (k : LaneCount) (i : Lane) (s : State) (c : StreamContext), formOk .prep a k i = true →
    s.sc[i] = some c → (c.ph = .active ∧ c.cur = c.len ∨ c.ph = .markerWritten) →
    ∃ b : List Byte,
      exec (.ofFields .prep a k i) s = .next { s with
        blk := s.blk.set i (some b)
        sc := s.sc.set i (some { c with ph := .done })
        newDone := s.newDone.set i (some true) } ∧
      b.length = a.blockBytes ∧
      b.getD 0 0 = (if c.ph = .active then 0x80 else 0x00) ∧
      (∀ p, 0 < p → p < a.blockBytes - 8 → b.getD p 0 = 0x00) ∧
      (∀ q < 8, b.getD (a.blockBytes - 8 + q) 0 = lengthByte a c.bitLen q)

/-- R96, R207: `PREP` of a stream that is `Done` raises `CONTRACT(PrepAfterDone)`, and every private buffer is then
without value (log entry 9; the lane index 0 in `FAILED`, whatever the lane of the `PREP`, is log entry 24). -/
def Obligations.PrepAfterDone : Prop :=
  ∀ (a : Alg) (k : LaneCount) (i : Lane) (s : State) (c : StreamContext), formOk .prep a k i = true →
    s.sc[i] = some c → c.ph = .done →
    exec (.ofFields .prep a k i) s = .next { s with
      status := 0x006F
      seq := ⟨.failed, 0⟩
      blk := Vector.replicate 8 none
      w := none
      lw := none
      ls := none
      dig := Vector.replicate 8 none }

/-- R102, R19: `PREP` changes nothing of another stream, nothing of another stream enters, neither its context nor its
message, and two of different lanes commute. -/
def Obligations.PrepIsStreamLocal : Prop :=
  ∀ (a : Alg) (k : LaneCount) (i : Lane) (s t : State) (c : StreamContext),
    s.sc[i] = some c → c.ph ≠ .done → exec (.ofFields .prep a k i) s = .next t →
    (∀ j : Lane, j ≠ i → t.sc[j] = s.sc[j] ∧ t.blk[j] = s.blk[j] ∧ t.newDone[j] = s.newDone[j]) ∧
    t.w = s.w ∧ t.lw = s.lw ∧ t.ls = s.ls ∧ t.dig = s.dig ∧ t.out = s.out ∧
    (∀ s' : State, s'.sc[i] = s.sc[i] →
      (∀ p < c.len.toNat, readByte s'.src (sourceAddress i p) = readByte s.src (sourceAddress i p)) →
      ∃ t', exec (.ofFields .prep a k i) s' = .next t' ∧
        t'.sc[i] = t.sc[i] ∧ t'.blk[i] = t.blk[i] ∧ t'.newDone[i] = t.newDone[i]) ∧
    (∀ (j : Lane) (u : State) (e : StreamContext), j ≠ i → s.sc[j] = some e → e.ph ≠ .done →
      exec (.ofFields .prep a k j) t = .next u →
      ∃ t', exec (.ofFields .prep a k j) s = .next t' ∧ exec (.ofFields .prep a k i) t' = .next u)

/-- R99: a stream is framed into `NB(LEN)` blocks: that many `PREP` make it `Done`, and no fewer. -/
def Obligations.BlockCount : Prop :=
  ∀ (a : Alg) (k : LaneCount) (i : Lane) (s : State) (c : StreamContext), formOk .prep a k i = true →
    s.sc[i] = some c → c.Ok → c.ph = .active → c.cur = 0 →
    (∃ bs t, prepRun a k i ((c.len.toNat + a.lengthRoom) / a.blockBytes + 1) s = some (bs, t) ∧ t.streamDone i) ∧
    (∀ n bs t, n < (c.len.toNat + a.lengthRoom) / a.blockBytes + 1 → prepRun a k i n s = some (bs, t) →
      ¬ t.streamDone i)

/-- R100: the blocks of a stream spell the message, the marker, the least number of zeros and the length field. -/
def Obligations.BlocksSpellPaddedMessage : Prop :=
  ∀ (a : Alg) (k : LaneCount) (i : Lane) (s : State) (c : StreamContext), formOk .prep a k i = true →
    s.sc[i] = some c → c.Ok → c.ph = .active → c.cur = 0 →
    ∃ bs t z, prepRun a k i ((c.len.toNat + a.lengthRoom) / a.blockBytes + 1) s = some (bs, t) ∧
      (∀ b ∈ bs, b.length = a.blockBytes) ∧
      bs.flatten = (List.range c.len.toNat).map (fun p => readByte s.src (i.val * 2 ^ 61 + p)) ++
        0x80 :: List.replicate z 0x00 ++ (List.range 8).map (lengthByte a c.bitLen) ∧
      a.lengthRoom - 8 ≤ z ∧ (c.len.toNat + 1 + z + 8) % a.blockBytes = 0 ∧
      ∀ z', a.lengthRoom - 8 ≤ z' → (c.len.toNat + 1 + z' + 8) % a.blockBytes = 0 → z ≤ z'

/-- R25: what one step of the core can do to a StreamContext. -/
def Obligations.StreamContextInvariants : Prop :=
  ∀ (s t : State) (i : Lane) (c : StreamContext), s.Inv → coreStep s = .next t → s.sc[i] = some c →
    ∃ c', t.sc[i] = some c' ∧
      c'.len = c.len ∧ c'.bitLen = c.bitLen ∧
      c.cur.toNat ≤ c'.cur.toNat ∧ c'.cur.toNat ≤ c'.len.toNat ∧
      c.ph.rank ≤ c'.ph.rank ∧ (c.ph = .done → c' = c) ∧
      (c'.ph = .markerWritten → c'.cur = c'.len) ∧
      (c' ≠ c → ∃ x : CommandContext, s.ctx = some x ∧ issuedWord s = some (wordOfFields .prep x.alg x.k i))

/-! ## The scalar path -/

/-- R130 and the six initial vectors: `INITS` (all six constructors). -/
def Obligations.InitsSeedsState : Prop :=
  ∀ (k : LaneCount) (i : Lane) (s : State),
    (formOk .inits .md5 k i = true → exec (.initsMd5 k i) s = .next { s with dig := s.dig.set i (some (.w32
      [0x67452301, 0xEFCDAB89, 0x98BADCFE, 0x10325476])) }) ∧
    (formOk .inits .sha1 k i = true → exec (.initsSha1 k i) s = .next { s with dig := s.dig.set i (some (.w32
      [0x67452301, 0xEFCDAB89, 0x98BADCFE, 0x10325476, 0xC3D2E1F0])) }) ∧
    (formOk .inits .sha224 k i = true → exec (.initsSha224 k i) s = .next { s with dig := s.dig.set i (some (.w32
      [0xC1059ED8, 0x367CD507, 0x3070DD17, 0xF70E5939, 0xFFC00B31, 0x68581511, 0x64F98FA7, 0xBEFA4FA4])) }) ∧
    (formOk .inits .sha256 k i = true → exec (.initsSha256 k i) s = .next { s with dig := s.dig.set i (some (.w32
      [0x6A09E667, 0xBB67AE85, 0x3C6EF372, 0xA54FF53A, 0x510E527F, 0x9B05688C, 0x1F83D9AB, 0x5BE0CD19])) }) ∧
    (formOk .inits .sha384 k i = true → exec (.initsSha384 k i) s = .next { s with dig := s.dig.set i (some (.w64
      [0xCBBB9D5DC1059ED8, 0x629A292A367CD507, 0x9159015A3070DD17, 0x152FECD8F70E5939,
        0x67332667FFC00B31, 0x8EB44A8768581511, 0xDB0C2E0D64F98FA7, 0x47B5481DBEFA4FA4])) }) ∧
    (formOk .inits .sha512 k i = true → exec (.initsSha512 k i) s = .next { s with dig := s.dig.set i (some (.w64
      [0x6A09E667F3BCC908, 0xBB67AE8584CAA73B, 0x3C6EF372FE94F82B, 0xA54FF53A5F1D36F1,
        0x510E527FADE682D1, 0x9B05688C2B3E6C1F, 0x1F83D9ABFB41BD6B, 0x5BE0CD19137E2179])) })

/-- R131, R132: `SCHED.MD5`: little-endian block words, then copies of them. -/
def Obligations.ScheduleOfMd5 : Prop :=
  ∀ (k : LaneCount) (i : Lane) (s : State) (b : List Byte), formOk .sched .md5 k i = true →
    s.blk[i] = some b → b.length = 64 →
    ∃ ws : List (BitVec 32),
      exec (.schedMd5 k i) s = .next { s with w := some (.w32 ws) } ∧ ws.length = 64 ∧
      (∀ t < 16, (ws.getD t 0).toNat = byteAt b (4 * t) + byteAt b (4 * t + 1) * 2 ^ 8 +
        byteAt b (4 * t + 2) * 2 ^ 16 + byteAt b (4 * t + 3) * 2 ^ 24) ∧
      (∀ t, 16 ≤ t → t < 64 → ws.getD t 0 = ws.getD
        (if t < 32 then (5 * t + 1) % 16 else if t < 48 then (3 * t + 5) % 16 else 7 * t % 16) 0)

/-- R131, R133: `SCHED.SHA1`: big-endian block words, then the XOR and rotate recurrence. -/
def Obligations.ScheduleOfSha1 : Prop :=
  ∀ (k : LaneCount) (i : Lane) (s : State) (b : List Byte), formOk .sched .sha1 k i = true →
    s.blk[i] = some b → b.length = 64 →
    ∃ ws : List (BitVec 32),
      exec (.schedSha1 k i) s = .next { s with w := some (.w32 ws) } ∧ ws.length = 80 ∧
      (∀ t < 16, (ws.getD t 0).toNat = byteAt b (4 * t) * 2 ^ 24 + byteAt b (4 * t + 1) * 2 ^ 16 +
        byteAt b (4 * t + 2) * 2 ^ 8 + byteAt b (4 * t + 3)) ∧
      (∀ t, 16 ≤ t → t < 80 → ws.getD t 0 =
        (ws.getD (t - 3) 0 ^^^ ws.getD (t - 8) 0 ^^^ ws.getD (t - 14) 0 ^^^ ws.getD (t - 16) 0).rotateLeft 1)

/-- R131, R134: `SCHED.SHA224` and `SCHED.SHA256`. -/
def Obligations.ScheduleOfSha2x32 : Prop :=
  ∀ (a : Alg) (k : LaneCount) (i : Lane) (s : State) (b : List Byte), (a = .sha224 ∨ a = .sha256) →
    formOk .sched a k i = true → s.blk[i] = some b → b.length = 64 →
    ∃ ws : List (BitVec 32),
      exec (.ofFields .sched a k i) s = .next { s with w := some (.w32 ws) } ∧ ws.length = 64 ∧
      (∀ t < 16, (ws.getD t 0).toNat = byteAt b (4 * t) * 2 ^ 24 + byteAt b (4 * t + 1) * 2 ^ 16 +
        byteAt b (4 * t + 2) * 2 ^ 8 + byteAt b (4 * t + 3)) ∧
      (∀ t, 16 ≤ t → t < 64 →
        let s0 (x : BitVec 32) := x.rotateRight 7 ^^^ x.rotateRight 18 ^^^ (x >>> 3)
        let s1 (x : BitVec 32) := x.rotateRight 17 ^^^ x.rotateRight 19 ^^^ (x >>> 10)
        ws.getD t 0 = s1 (ws.getD (t - 2) 0) + ws.getD (t - 7) 0 + s0 (ws.getD (t - 15) 0) + ws.getD (t - 16) 0)

/-- R131, R135: `SCHED.SHA384` and `SCHED.SHA512`. -/
def Obligations.ScheduleOfSha2x64 : Prop :=
  ∀ (a : Alg) (k : LaneCount) (i : Lane) (s : State) (b : List Byte), (a = .sha384 ∨ a = .sha512) →
    formOk .sched a k i = true → s.blk[i] = some b → b.length = 128 →
    ∃ ws : List (BitVec 64),
      exec (.ofFields .sched a k i) s = .next { s with w := some (.w64 ws) } ∧ ws.length = 80 ∧
      (∀ t < 16, (ws.getD t 0).toNat =
        byteAt b (8 * t) * 2 ^ 56 + byteAt b (8 * t + 1) * 2 ^ 48 + byteAt b (8 * t + 2) * 2 ^ 40 +
        byteAt b (8 * t + 3) * 2 ^ 32 + byteAt b (8 * t + 4) * 2 ^ 24 + byteAt b (8 * t + 5) * 2 ^ 16 +
        byteAt b (8 * t + 6) * 2 ^ 8 + byteAt b (8 * t + 7)) ∧
      (∀ t, 16 ≤ t → t < 80 →
        let s0 (x : BitVec 64) := x.rotateRight 1 ^^^ x.rotateRight 8 ^^^ (x >>> 7)
        let s1 (x : BitVec 64) := x.rotateRight 19 ^^^ x.rotateRight 61 ^^^ (x >>> 6)
        ws.getD t 0 = s1 (ws.getD (t - 2) 0) + ws.getD (t - 7) 0 + s0 (ws.getD (t - 15) 0) + ws.getD (t - 16) 0)

/-- R136, R137, R141: `COMP.MD5`: 64 steps from the state, then the feed-forward. -/
def Obligations.CompressionOfMd5 : Prop :=
  ∀ (k : LaneCount) (i : Lane) (s : State) (h0 h1 h2 h3 : BitVec 32) (ws : List (BitVec 32)),
    formOk .comp .md5 k i = true → s.dig[i] = some (.w32 [h0, h1, h2, h3]) → s.w = some (.w32 ws) →
    ws.length = 64 →
    ∃ a b c d : Nat → BitVec 32,
      a 0 = h0 ∧ b 0 = h1 ∧ c 0 = h2 ∧ d 0 = h3 ∧
      (∀ r < 64,
        let f := if r < 16 then (b r &&& c r) ||| (~~~(b r) &&& d r)
          else if r < 32 then (d r &&& b r) ||| (~~~(d r) &&& c r)
          else if r < 48 then b r ^^^ c r ^^^ d r
          else c r ^^^ (b r ||| ~~~(d r))
        let x := a r + f + kMd5.getD r 0 + ws.getD r 0
        let n := ([[7, 12, 17, 22], [5, 9, 14, 20], [4, 11, 16, 23], [6, 10, 15, 21]].getD (r / 16) []).getD (r % 4) 0
        a (r + 1) = d r ∧ b (r + 1) = b r + x.rotateLeft n ∧ c (r + 1) = b r ∧ d (r + 1) = c r) ∧
      exec (.compMd5 k i) s = .next { s with dig := s.dig.set i (some (.w32
        [h0 + a 64, h1 + b 64, h2 + c 64, h3 + d 64])) }

/-- R136, R138, R141: `COMP.SHA1`. -/
def Obligations.CompressionOfSha1 : Prop :=
  ∀ (k : LaneCount) (i : Lane) (s : State) (h0 h1 h2 h3 h4 : BitVec 32) (ws : List (BitVec 32)),
    formOk .comp .sha1 k i = true → s.dig[i] = some (.w32 [h0, h1, h2, h3, h4]) → s.w = some (.w32 ws) →
    ws.length = 80 →
    ∃ a b c d e : Nat → BitVec 32,
      a 0 = h0 ∧ b 0 = h1 ∧ c 0 = h2 ∧ d 0 = h3 ∧ e 0 = h4 ∧
      (∀ t < 80,
        let f := if t < 20 then (b t &&& c t) ^^^ (~~~(b t) &&& d t)
          else if t < 40 then b t ^^^ c t ^^^ d t
          else if t < 60 then (b t &&& c t) ^^^ (b t &&& d t) ^^^ (c t &&& d t)
          else b t ^^^ c t ^^^ d t
        let n : BitVec 32 := [0x5A827999, 0x6ED9EBA1, 0x8F1BBCDC, 0xCA62C1D6].getD (t / 20) 0
        a (t + 1) = (a t).rotateLeft 5 + f + e t + n + ws.getD t 0 ∧
        b (t + 1) = a t ∧ c (t + 1) = (b t).rotateLeft 30 ∧ d (t + 1) = c t ∧ e (t + 1) = d t) ∧
      exec (.compSha1 k i) s = .next { s with dig := s.dig.set i (some (.w32
        [h0 + a 80, h1 + b 80, h2 + c 80, h3 + d 80, h4 + e 80])) }

/-- R136, R139, R141: `COMP.SHA224` and `COMP.SHA256`. -/
def Obligations.CompressionOfSha2x32 : Prop :=
  ∀ (alg : Alg) (k : LaneCount) (i : Lane) (s : State) (h0 h1 h2 h3 h4 h5 h6 h7 : BitVec 32)
    (ws : List (BitVec 32)), (alg = .sha224 ∨ alg = .sha256) → formOk .comp alg k i = true →
    s.dig[i] = some (.w32 [h0, h1, h2, h3, h4, h5, h6, h7]) → s.w = some (.w32 ws) → ws.length = 64 →
    ∃ a b c d e f g h : Nat → BitVec 32,
      a 0 = h0 ∧ b 0 = h1 ∧ c 0 = h2 ∧ d 0 = h3 ∧ e 0 = h4 ∧ f 0 = h5 ∧ g 0 = h6 ∧ h 0 = h7 ∧
      (∀ t < 64,
        let t1 := h t + ((e t).rotateRight 6 ^^^ (e t).rotateRight 11 ^^^ (e t).rotateRight 25) +
          ((e t &&& f t) ^^^ (~~~(e t) &&& g t)) + kSha2x32.getD t 0 + ws.getD t 0
        let t2 := ((a t).rotateRight 2 ^^^ (a t).rotateRight 13 ^^^ (a t).rotateRight 22) +
          ((a t &&& b t) ^^^ (a t &&& c t) ^^^ (b t &&& c t))
        a (t + 1) = t1 + t2 ∧ b (t + 1) = a t ∧ c (t + 1) = b t ∧ d (t + 1) = c t ∧
        e (t + 1) = d t + t1 ∧ f (t + 1) = e t ∧ g (t + 1) = f t ∧ h (t + 1) = g t) ∧
      exec (.ofFields .comp alg k i) s = .next { s with dig := s.dig.set i (some (.w32
        [h0 + a 64, h1 + b 64, h2 + c 64, h3 + d 64, h4 + e 64, h5 + f 64, h6 + g 64, h7 + h 64])) }

/-- R136, R140, R141: `COMP.SHA384` and `COMP.SHA512`. -/
def Obligations.CompressionOfSha2x64 : Prop :=
  ∀ (alg : Alg) (k : LaneCount) (i : Lane) (s : State) (h0 h1 h2 h3 h4 h5 h6 h7 : BitVec 64)
    (ws : List (BitVec 64)), (alg = .sha384 ∨ alg = .sha512) → formOk .comp alg k i = true →
    s.dig[i] = some (.w64 [h0, h1, h2, h3, h4, h5, h6, h7]) → s.w = some (.w64 ws) → ws.length = 80 →
    ∃ a b c d e f g h : Nat → BitVec 64,
      a 0 = h0 ∧ b 0 = h1 ∧ c 0 = h2 ∧ d 0 = h3 ∧ e 0 = h4 ∧ f 0 = h5 ∧ g 0 = h6 ∧ h 0 = h7 ∧
      (∀ t < 80,
        let t1 := h t + ((e t).rotateRight 14 ^^^ (e t).rotateRight 18 ^^^ (e t).rotateRight 41) +
          ((e t &&& f t) ^^^ (~~~(e t) &&& g t)) + kSha2x64.getD t 0 + ws.getD t 0
        let t2 := ((a t).rotateRight 28 ^^^ (a t).rotateRight 34 ^^^ (a t).rotateRight 39) +
          ((a t &&& b t) ^^^ (a t &&& c t) ^^^ (b t &&& c t))
        a (t + 1) = t1 + t2 ∧ b (t + 1) = a t ∧ c (t + 1) = b t ∧ d (t + 1) = c t ∧
        e (t + 1) = d t + t1 ∧ f (t + 1) = e t ∧ g (t + 1) = f t ∧ h (t + 1) = g t) ∧
      exec (.ofFields .comp alg k i) s = .next { s with dig := s.dig.set i (some (.w64
        [h0 + a 80, h1 + b 80, h2 + c 80, h3 + d 80, h4 + e 80, h5 + f 80, h6 + g 80, h7 + h 80])) }

/-! ## The lane path -/

/-- R150: `INITL` (all six constructors) broadcasts what `INITS` seeds: each vector of `LS` holds one word of the
initial vector in all its K lanes. -/
def Obligations.InitlBroadcasts : Prop :=
  ∀ (a : Alg) (k : LaneCount) (s : State), laneCountLegal a k = true →
    ∃ vs : List (List (Word a.width)),
      exec (.ofFields .initl a k 0) s = .next { s with ls := some (VectorArray.ofVectors a.width vs) } ∧
      vs.length = a.stateWords ∧ (∀ v ∈ vs, v.length = k.lanes) ∧
      ∀ j : Lane, j.val < k.lanes →
        exec (.ofFields .inits a k j) s = .next { s with
          dig := s.dig.set j (some (WordArray.ofWords a.width (column 0 vs j.val))) }

/-- R151 to R153: after `PACK` (all six constructors) column `j` of `LW` is the `W` that `SCHED j` would have
produced from the same block; all K blocks are read, whatever the phase of their streams. -/
def Obligations.PackColumnIsSchedule : Prop :=
  ∀ (a : Alg) (k : LaneCount) (s : State), laneCountLegal a k = true →
    (∀ j : Lane, j.val < k.lanes → ∃ b, s.blk[j] = some b ∧ b.length = a.blockBytes) →
    ∃ vs : List (List (Word a.width)),
      exec (.ofFields .pack a k 0) s = .next { s with lw := some (VectorArray.ofVectors a.width vs) } ∧
      vs.length = a.steps ∧ (∀ v ∈ vs, v.length = k.lanes) ∧
      ∀ j : Lane, j.val < k.lanes →
        exec (.ofFields .sched a k j) s = .next { s with
          w := some (WordArray.ofWords a.width (column 0 vs j.val)) }

/-- R154, R155: `COMPL` (all six constructors) does to each lane's slice of `LS`, with its column of `LW`, what `COMP`
does to a state with a schedule, and nothing of another lane enters. -/
def Obligations.ComplLaneIsCompression : Prop :=
  ∀ (a : Alg) (k : LaneCount) (s : State) (hs ws : List (List (Word a.width))), laneCountLegal a k = true →
    s.ls = some (VectorArray.ofVectors a.width hs) → hs.length = a.stateWords → (∀ v ∈ hs, v.length = k.lanes) →
    s.lw = some (VectorArray.ofVectors a.width ws) → ws.length = a.steps → (∀ v ∈ ws, v.length = k.lanes) →
    ∃ vs : List (List (Word a.width)),
      exec (.ofFields .compl a k 0) s = .next { s with ls := some (VectorArray.ofVectors a.width vs) } ∧
      vs.length = a.stateWords ∧ (∀ v ∈ vs, v.length = k.lanes) ∧
      ∀ (j : Lane) (t : State), j.val < k.lanes →
        t.dig[j] = some (WordArray.ofWords a.width (column 0 hs j.val)) →
        t.w = some (WordArray.ofWords a.width (column 0 ws j.val)) →
        exec (.ofFields .comp a k j) t = .next { t with
          dig := t.dig.set j (some (WordArray.ofWords a.width (column 0 vs j.val))) }

/-- R156: `SNAP` (all six constructors) copies lane `i` of all `NW` vectors, and leaves `LS` as it is. -/
def Obligations.SnapCopiesSlice : Prop :=
  ∀ (a : Alg) (k : LaneCount) (i : Lane) (s : State) (vs : List (List (Word a.width))),
    formOk .snap a k i = true → s.ls = some (VectorArray.ofVectors a.width vs) → vs.length = a.stateWords →
    (∀ v ∈ vs, v.length = k.lanes) →
    ∃ ws : List (Word a.width),
      exec (.ofFields .snap a k i) s = .next { s with
        dig := s.dig.set i (some (WordArray.ofWords a.width ws)) } ∧
      ws.length = a.stateWords ∧ ∀ n < a.stateWords, ws[n]? = (vs[n]?).bind fun v => v[i.val]?

/-! ## The finalizer -/

/-- R195: `FINAL` (all six constructors) writes the first `ND` words of `DIG[i]`, byte by byte in the algorithm's
order, and nothing else. -/
def Obligations.FinalSerialisesDigest : Prop :=
  ∀ (a : Alg) (k : LaneCount) (i : Lane) (s : State) (h : List (Word a.width)), formOk .final a k i = true →
    s.dig[i] = some (WordArray.ofWords a.width h) → h.length = a.stateWords →
    ∃ bs : List Byte,
      exec (.ofFields .final a k i) s = .next { s with out := s.out.set i (some bs) } ∧
      bs.length = a.digestWords * a.width.bytes ∧
      ∀ n p, n < a.digestWords → p < a.width.bytes →
        (bs.getD (n * a.width.bytes + p) 0).toNat =
          (h.getD n 0).toNat / 2 ^ (8 * (if a = .md5 then p else a.width.bytes - 1 - p)) % 256

/-! ## Reads of nothing, and buffers of the wrong size -/

/-- R44: a micro-operation that reads an element without value faults, naming it; in every form R76 gives it, the one lane
of `HASH` included. That `PACK` names the lowest such lane is log entry 1;
that the fault wins over another operand's wrong shape is log entry 8. -/
def Obligations.UnwrittenReadsFault : Prop :=
  ∀ (a : Alg) (k : LaneCount) (i : Lane) (s : State),
    (formOk .prep a k i = true → s.sc[i] = none →
      exec (.ofFields .prep a k i) s = .fault (.noValue (.streamContext i))) ∧
    (formOk .sched a k i = true → s.blk[i] = none →
      exec (.ofFields .sched a k i) s = .fault (.noValue (.block i))) ∧
    (formOk .comp a k i = true → s.dig[i] = none →
      exec (.ofFields .comp a k i) s = .fault (.noValue (.digestWords i))) ∧
    (formOk .final a k i = true → s.dig[i] = none →
      exec (.ofFields .final a k i) s = .fault (.noValue (.digestWords i))) ∧
    (formOk .comp a k i = true → s.digestReady a i → s.w = none →
      exec (.ofFields .comp a k i) s = .fault (.noValue .schedule)) ∧
    (formOk .pack a k 0 = true → i.val < k.lanes → s.blk[i] = none →
      (∀ j : Lane, j.val < i.val → s.blk[j] ≠ none) →
      exec (.ofFields .pack a k 0) s = .fault (.noValue (.block i))) ∧
    (formOk .compl a k 0 = true → s.ls = none →
      exec (.ofFields .compl a k 0) s = .fault (.noValue .laneState)) ∧
    (formOk .snap a k i = true → s.ls = none →
      exec (.ofFields .snap a k i) s = .fault (.noValue .laneState)) ∧
    (formOk .compl a k 0 = true → s.laneStateReady a k → s.lw = none →
      exec (.ofFields .compl a k 0) s = .fault (.noValue .laneSchedule))

/-- R204, R207: a block that is not `B` bytes or a schedule that is not `S` words of the width (another number of words or
lanes, or words of the other width) raises
`CONTRACT(BufferSizeMismatch)`, in every form R76 gives the operation; which read of which buffer does so is the model's
choice (log entry 8), as are the buffers left without value (log entry 9) and the lane index 0 in `FAILED` (log entry 24),
and no run reaches it. -/
def Obligations.WrongSizesRaise : Prop :=
  ∀ (a : Alg) (k : LaneCount) (i : Lane) (s : State),
    let failed : State := { s with
      status := 0x008F
      seq := ⟨.failed, 0⟩
      blk := Vector.replicate 8 none
      w := none
      lw := none
      ls := none
      dig := Vector.replicate 8 none }
    (∀ b, formOk .sched a k i = true → s.blk[i] = some b → b.length ≠ a.blockBytes →
      exec (.ofFields .sched a k i) s = .next failed) ∧
    (∀ b, formOk .pack a k 0 = true → i.val < k.lanes → s.blk[i] = some b → b.length ≠ a.blockBytes →
      (∀ j : Lane, j.val < k.lanes → s.blk[j] ≠ none) → exec (.ofFields .pack a k 0) s = .next failed) ∧
    (∀ x : WordArray, formOk .comp a k i = true → s.digestReady a i → s.w = some x →
      (∀ ws : List (Word a.width), ws.length = a.steps → x ≠ WordArray.ofWords a.width ws) →
      exec (.ofFields .comp a k i) s = .next failed) ∧
    (∀ x : VectorArray, formOk .compl a k 0 = true → s.laneStateReady a k → s.lw = some x →
      (∀ vs : List (List (Word a.width)), vs.length = a.steps → (∀ v ∈ vs, v.length = k.lanes) →
        x ≠ VectorArray.ofVectors a.width vs) →
      exec (.ofFields .compl a k 0) s = .next failed)

/-- R51: which micro-operation writes what, when it does not raise an error: everything it is not the writer of is
as before, in every lane but its own. -/
def Obligations.OnlyWritersWrite : Prop :=
  ∀ (j : Instr) (s t : State), j.isCommand = false → exec j s = .next t → (∀ e, t ≠ s.raiseInternal e) →
    let op := j.fields.op
    t.params = s.params ∧ t.status = s.status ∧ t.seq = s.seq ∧ t.ctx = s.ctx ∧ t.outLen = s.outLen ∧
    t.srcDesc = s.srcDesc ∧ t.cmd = s.cmd ∧ t.src = s.src ∧ t.host = s.host ∧ t.hostData = s.hostData ∧
    t.issue = s.issue ∧
    (op ≠ .prep → t.sc = s.sc ∧ t.newDone = s.newDone ∧ t.blk = s.blk) ∧
    (op ≠ .sched → t.w = s.w) ∧
    (op ≠ .pack → t.lw = s.lw) ∧
    (op ≠ .initl → op ≠ .compl → t.ls = s.ls) ∧
    (op ≠ .inits → op ≠ .snap → op ≠ .comp → t.dig = s.dig) ∧
    (op ≠ .final → t.out = s.out) ∧
    (∀ l : Lane, l ≠ j.fields.lane →
      t.sc[l] = s.sc[l] ∧ t.newDone[l] = s.newDone[l] ∧ t.blk[l] = s.blk[l] ∧ t.dig[l] = s.dig[l] ∧
        t.out[l] = s.out[l])

/-! ## The sequencer -/

/-- R183: where accept leaves the sequencer, and the six rows for `HASH`. The rows give no lane index; the 0 that `SEQ` holds
is the model's choice (log entry 24), and so is that completion keeps `SC` and the buffers (log entry 25). -/
def Obligations.SequencerFollowsHashTable : Prop :=
  (∀ (a : Alg) (s t : State), exec (.ofFields .hash a .k1 0) s = .next t → t.busy = true → t.seq = ⟨.sInit, 0⟩) ∧
  ∀ (a : Alg) (s : State), s.ctx = some ⟨a, .k1⟩ →
    (s.seq.phase = .sInit → coreStep s = exec (.ofFields .inits a .k1 0) { s with seq := ⟨.sTest, 0⟩ }) ∧
    (∀ c, s.seq.phase = .sTest → s.sc[(0 : Lane)] = some c → c.ph ≠ .done →
      coreStep s = exec (.ofFields .prep a .k1 0) { s with seq := ⟨.sSched, 0⟩ }) ∧
    (∀ c, s.seq.phase = .sTest → s.sc[(0 : Lane)] = some c → c.ph = .done →
      coreStep s = .next { s with seq := ⟨.sFinal, 0⟩ }) ∧
    (s.seq.phase = .sSched → coreStep s = exec (.ofFields .sched a .k1 0) { s with seq := ⟨.sComp, 0⟩ }) ∧
    (s.seq.phase = .sComp → coreStep s = exec (.ofFields .comp a .k1 0) { s with seq := ⟨.sTest, 0⟩ }) ∧
    (∀ t, s.seq.phase = .sFinal → exec (.ofFields .final a .k1 0) { s with seq := ⟨.done, 0⟩ } = .next t →
      coreStep s = .next { t with
        outLen := some (BitVec.ofNat 8 (a.digestWords * a.width.bytes))
        status := 0x0002 })

/-- R184: where accept leaves the sequencer, and the twenty rows for `HASHPAR`; R182: no step in the three terminal phases,
whatever `CTX` holds, where the core stays as it is (log entry 7). That `SEQ` holds the lane index 0 in a phase that carries none is the model's
choice (log entry 24), and so is that completion keeps `SC` and the buffers (log entry 25). -/
def Obligations.SequencerFollowsHashparTable : Prop :=
  (∀ (a : Alg) (k : LaneCount) (s t : State), exec (.ofFields .hashpar a k 0) s = .next t → t.busy = true →
    t.seq = ⟨.pInit, 0⟩) ∧
  (∀ (a : Alg) (k : LaneCount) (s : State), laneCountLegal a k = true → s.ctx = some ⟨a, k⟩ →
    let thresh := if k = .k2 then s.params.thresh2 else if k = .k4 then s.params.thresh4 else s.params.thresh8
    (s.seq.phase = .pInit → coreStep s = exec (.ofFields .initl a k 0) { s with seq := ⟨.pPrep, 0⟩ }) ∧
    (s.seq.phase = .pPack → coreStep s = exec (.ofFields .pack a k 0) { s with seq := ⟨.pCompl, 0⟩ }) ∧
    (s.seq.phase = .pCompl → coreStep s = exec (.ofFields .compl a k 0) { s with seq := ⟨.pSnap, 0⟩ }) ∧
    (∀ ph : Lane → StreamPhase, s.seq.phase = .pTest →
      (∀ i : Lane, i.val < k.lanes → (s.sc[i]).map StreamContext.ph = some (ph i)) →
      coreStep s = .next { s with
        seq := if thresh < (k.laneList.filter fun i => ph i ≠ .done).length then ⟨.pPrep, 0⟩ else ⟨.dNext, 0⟩ }) ∧
    (∀ (i : Lane) (c : StreamContext), s.seq.lane = i.val → i.val < k.lanes → s.sc[i] = some c →
      (s.seq.phase = .pPrep → c.ph ≠ .done → coreStep s = exec (.ofFields .prep a k i)
        { s with newDone := s.newDone.set i (some false), seq := ⟨.pPrep, i.val + 1⟩ }) ∧
      (s.seq.phase = .pPrep → c.ph = .done → coreStep s = .next
        { s with newDone := s.newDone.set i (some false), seq := ⟨.pPrep, i.val + 1⟩ }) ∧
      (s.seq.phase = .pSnap → s.newDone[i] = some true →
        coreStep s = exec (.ofFields .snap a k i) { s with seq := ⟨.pSnap, i.val + 1⟩ }) ∧
      (s.seq.phase = .pSnap → s.newDone[i] = some false →
        coreStep s = .next { s with seq := ⟨.pSnap, i.val + 1⟩ }) ∧
      (s.seq.phase = .dNext → c.ph ≠ .done →
        coreStep s = exec (.ofFields .snap a k i) { s with seq := ⟨.dTest, i.val⟩ }) ∧
      (s.seq.phase = .dNext → c.ph = .done → coreStep s = .next { s with seq := ⟨.dNext, i.val + 1⟩ }) ∧
      (s.seq.phase = .dTest → c.ph ≠ .done →
        coreStep s = exec (.ofFields .prep a k i) { s with seq := ⟨.dSched, i.val⟩ }) ∧
      (s.seq.phase = .dTest → c.ph = .done → coreStep s = .next { s with seq := ⟨.dNext, i.val + 1⟩ }) ∧
      (s.seq.phase = .dSched → coreStep s = exec (.ofFields .sched a k i) { s with seq := ⟨.dComp, i.val⟩ }) ∧
      (s.seq.phase = .dComp → coreStep s = exec (.ofFields .comp a k i) { s with seq := ⟨.dTest, i.val⟩ }) ∧
      (s.seq.phase = .fFinal →
        coreStep s = exec (.ofFields .final a k i) { s with seq := ⟨.fFinal, i.val + 1⟩ })) ∧
    (s.seq.lane = k.lanes →
      (s.seq.phase = .pPrep → coreStep s = .next { s with seq := ⟨.pPack, 0⟩ }) ∧
      (s.seq.phase = .pSnap → coreStep s = .next { s with seq := ⟨.pTest, 0⟩ }) ∧
      (s.seq.phase = .dNext → coreStep s = .next { s with seq := ⟨.fFinal, 0⟩ }) ∧
      (s.seq.phase = .fFinal → coreStep s = .next { s with
        seq := ⟨.done, 0⟩
        outLen := some (BitVec.ofNat 8 (a.digestWords * a.width.bytes))
        status := 0x0002 }))) ∧
  ∀ s : State, (s.seq.phase = .idle ∨ s.seq.phase = .done ∨ s.seq.phase = .failed) → coreStep s = .next s

/-- R196: the length of the digest, in bytes, that completion writes to `OUTLEN`. -/
def Obligations.DigestLengths : Prop :=
  ∀ (a : Alg) (s : State), (s.complete a).status = 0x0002 ∧ (s.complete a).outLen = some (match a with
    | .md5 => 16
    | .sha1 => 20
    | .sha224 => 28
    | .sha256 => 32
    | .sha384 => 48
    | .sha512 => 64)

/-! ## Invariants -/

/-- Every step keeps the invariant: sources in canonical form, `STATUS` against `SEQ`, the lane index in `0 .. 8`, every
StreamContext within its bounds. -/
def Obligations.StepKeepsInvariant : Prop :=
  ∀ s t : State, s.Inv → step s = .next t → t.Inv

/-- The invariant holds after reset, whatever the parameters. -/
def Obligations.ResetHasInvariant : Prop :=
  (∀ p : Params, (State.resetWith p).Inv) ∧ State.reset.Inv

/-- R15, R38, R59: the parameters never change; a step of the core changes no source, no descriptor, nor the
read-back of `CMD`. -/
def Obligations.InputsAreConstant : Prop :=
  (∀ s t : State, step s = .next t → t.params = s.params) ∧
  (∀ s t : State, coreStep s = .next t →
    t.src = s.src ∧ t.srcDesc = s.srcDesc ∧ t.cmd = s.cmd ∧ t.host = s.host ∧ t.hostData = s.hostData ∧
      t.issue = s.issue)

/-- An accepted command is ready: what its first phase reads has a value. -/
def Obligations.AcceptedCommandIsReady : Prop :=
  ∀ (i : Instr) (s t : State), i.isCommand = true → exec i s = .next t → t.busy = true → t.Ready

/-- R44, R209, R232: a running command's next step is always enabled, reads no element without value, raises no
error, and leaves the command running or done (with the lane index 0 in `DONE`, log entry 24). -/
def Obligations.RunningCommandNeverStops : Prop :=
  ∀ s : State, s.Ready →
    ∃ t, coreStep s = .next t ∧ (t.Ready ∨ t.status = 0x0002 ∧ t.seq = ⟨.done, 0⟩)

/-! ## What a command computes -/

/-- R173, R99, R189: an accepted `HASH` (all six constructors) on a message of `LEN` bytes is `DONE` after
`3 * NB(LEN) + 3` steps of the core (log entry 6), with the digest of the message in `OUT[0]` and its length in `OUTLEN`;
the lane index 0 in `DONE` is log entry 24. -/
def Obligations.HashComputesDigest : Prop :=
  ∀ (a : Alg) (s t : State) (d : BitVec 64), s.srcDesc[(0 : Lane)] = some d →
    exec (.ofFields .hash a .k1 0) s = .next t → t.busy = true →
    ∃ u, runCore (3 * blockCount a (descLength d).toNat + 3) t = .next u ∧
      u.status = 0x0002 ∧ u.seq = ⟨.done, 0⟩ ∧
      u.out[(0 : Lane)] = some (digest a (sourceMessage s.src 0 d)) ∧
      u.outLen = some (BitVec.ofNat 8 a.digestBytes)

/-- R174, R185: an accepted `HASHPAR` (all six constructors), whatever the threshold, comes to `DONE` with the digest
of stream `i` in `OUT[i]` for every lane of the call (one row a step: log entry 6);
the lane index 0 in `DONE` is log entry 24. -/
def Obligations.HashparComputesDigests : Prop :=
  ∀ (a : Alg) (k : LaneCount) (s t : State), exec (.ofFields .hashpar a k 0) s = .next t → t.busy = true →
    ∃ n u, runCore n t = .next u ∧ u.status = 0x0002 ∧ u.seq = ⟨.done, 0⟩ ∧
      u.outLen = some (BitVec.ofNat 8 a.digestBytes) ∧
      ∀ i : Lane, i.val < k.lanes →
        ∃ d, s.srcDesc[i] = some d ∧ u.out[i] = some (digest a (sourceMessage s.src i d))

/-- R186, R187: what `HASHPAR` leaves in lane `i` is what `HASH` leaves when given stream `i`'s source, on any instance:
neither the parameters nor anything else of the two states enters. -/
def Obligations.ParallelEqualsScalar : Prop :=
  ∀ (a : Alg) (k : LaneCount) (i : Lane) (s s' t t' : State) (d : BitVec 64), i.val < k.lanes →
    exec (.ofFields .hashpar a k 0) s = .next t → t.busy = true →
    exec (.ofFields .hash a .k1 0) s' = .next t' → t'.busy = true →
    s.srcDesc[i] = some d → s'.srcDesc[(0 : Lane)] = some d →
    (∀ p < (descLength d).toNat, readByte s'.src (sourceAddress 0 p) = readByte s.src (sourceAddress i p)) →
    ∃ n n' u u', runCore n t = .next u ∧ runCore n' t' = .next u' ∧ u.isDone = true ∧ u'.isDone = true ∧
      u.outLen = u'.outLen ∧ u.out[i] = u'.out[(0 : Lane)]

/-- R188: a command's `STATUS`, `OUTLEN` and `OUT` are a function of the word, the descriptors and source bytes (those below
the length, R40, R50) of its lanes and the parameters: two states that agree on these, whatever earlier commands left in them, agree on the result. -/
def Obligations.ResultDependsOnInputsOnly : Prop :=
  ∀ (i : Instr) (s s' t t' : State), i.isCommand = true → exec i s = .next t → exec i s' = .next t' →
    s'.params = s.params →
    (∀ j : Lane, j.val < i.fields.k.lanes → s'.srcDesc[j] = s.srcDesc[j] ∧
      ∀ d, s.srcDesc[j] = some d → ∀ p < (descLength d).toNat,
        readByte s'.src (sourceAddress j p) = readByte s.src (sourceAddress j p)) →
    t'.status = t.status ∧
    (t.busy = false → t'.outLen = t.outLen ∧ t'.out = t.out) ∧
    (t.busy = true → ∃ n u u', runCore n t = .next u ∧ runCore n t' = .next u' ∧
      u.isDone = true ∧ u'.status = u.status ∧ u'.outLen = u.outLen ∧
      ∀ j : Lane, j.val < i.fields.k.lanes → u'.out[j] = u.out[j] ∧ u.out[j] ≠ none)

/-- R219: the word a running command issues next, and its control after that step, depend on the lengths and cursors
of the streams and on the parameters, never on the source contents or on any data computed from them. -/
def Obligations.ControlIgnoresContents : Prop :=
  ∀ s t : State, SameControl s t → s.Ready → t.Ready →
    issuedWord s = issuedWord t ∧
    ∀ s' t', coreStep s = .next s' → coreStep t = .next t' → SameControl s' t'
end

