-- ==== Sys2Proof/Laws/State.lean ====
section
/-! SUPPORT. One lemma per field per named update of the state, each true by definition, so that no proof
unfolds a record update. -/

namespace Sys2Proof.Machine

variable (s : State)

@[simp] theorem State.setStatus_params (c : CoreState) (err info : BitVec 3) : (s.setStatus c err info).params = s.params := rfl
@[simp] theorem State.setStatus_status (c : CoreState) (err info : BitVec 3) : (s.setStatus c err info).status = statusWord c err info := rfl
@[simp] theorem State.setStatus_seq (c : CoreState) (err info : BitVec 3) : (s.setStatus c err info).seq = s.seq := rfl
@[simp] theorem State.setStatus_ctx (c : CoreState) (err info : BitVec 3) : (s.setStatus c err info).ctx = s.ctx := rfl
@[simp] theorem State.setStatus_sc (c : CoreState) (err info : BitVec 3) : (s.setStatus c err info).sc = s.sc := rfl
@[simp] theorem State.setStatus_newDone (c : CoreState) (err info : BitVec 3) : (s.setStatus c err info).newDone = s.newDone := rfl
@[simp] theorem State.setStatus_blk (c : CoreState) (err info : BitVec 3) : (s.setStatus c err info).blk = s.blk := rfl
@[simp] theorem State.setStatus_w (c : CoreState) (err info : BitVec 3) : (s.setStatus c err info).w = s.w := rfl
@[simp] theorem State.setStatus_lw (c : CoreState) (err info : BitVec 3) : (s.setStatus c err info).lw = s.lw := rfl
@[simp] theorem State.setStatus_ls (c : CoreState) (err info : BitVec 3) : (s.setStatus c err info).ls = s.ls := rfl
@[simp] theorem State.setStatus_dig (c : CoreState) (err info : BitVec 3) : (s.setStatus c err info).dig = s.dig := rfl
@[simp] theorem State.setStatus_out (c : CoreState) (err info : BitVec 3) : (s.setStatus c err info).out = s.out := rfl
@[simp] theorem State.setStatus_outLen (c : CoreState) (err info : BitVec 3) : (s.setStatus c err info).outLen = s.outLen := rfl
@[simp] theorem State.setStatus_srcDesc (c : CoreState) (err info : BitVec 3) : (s.setStatus c err info).srcDesc = s.srcDesc := rfl
@[simp] theorem State.setStatus_cmd (c : CoreState) (err info : BitVec 3) : (s.setStatus c err info).cmd = s.cmd := rfl
@[simp] theorem State.setStatus_src (c : CoreState) (err info : BitVec 3) : (s.setStatus c err info).src = s.src := rfl
@[simp] theorem State.setStatus_host (c : CoreState) (err info : BitVec 3) : (s.setStatus c err info).host = s.host := rfl
@[simp] theorem State.setStatus_hostData (c : CoreState) (err info : BitVec 3) : (s.setStatus c err info).hostData = s.hostData := rfl
@[simp] theorem State.setStatus_issue (c : CoreState) (err info : BitVec 3) : (s.setStatus c err info).issue = s.issue := rfl

@[simp] theorem State.setNewDone_params (i : Lane) (v : Bool) : (s.setNewDone i v).params = s.params := rfl
@[simp] theorem State.setNewDone_status (i : Lane) (v : Bool) : (s.setNewDone i v).status = s.status := rfl
@[simp] theorem State.setNewDone_seq (i : Lane) (v : Bool) : (s.setNewDone i v).seq = s.seq := rfl
@[simp] theorem State.setNewDone_ctx (i : Lane) (v : Bool) : (s.setNewDone i v).ctx = s.ctx := rfl
@[simp] theorem State.setNewDone_sc (i : Lane) (v : Bool) : (s.setNewDone i v).sc = s.sc := rfl
@[simp] theorem State.setNewDone_newDone (i : Lane) (v : Bool) : (s.setNewDone i v).newDone = s.newDone.set i (some v) := rfl
@[simp] theorem State.setNewDone_blk (i : Lane) (v : Bool) : (s.setNewDone i v).blk = s.blk := rfl
@[simp] theorem State.setNewDone_w (i : Lane) (v : Bool) : (s.setNewDone i v).w = s.w := rfl
@[simp] theorem State.setNewDone_lw (i : Lane) (v : Bool) : (s.setNewDone i v).lw = s.lw := rfl
@[simp] theorem State.setNewDone_ls (i : Lane) (v : Bool) : (s.setNewDone i v).ls = s.ls := rfl
@[simp] theorem State.setNewDone_dig (i : Lane) (v : Bool) : (s.setNewDone i v).dig = s.dig := rfl
@[simp] theorem State.setNewDone_out (i : Lane) (v : Bool) : (s.setNewDone i v).out = s.out := rfl
@[simp] theorem State.setNewDone_outLen (i : Lane) (v : Bool) : (s.setNewDone i v).outLen = s.outLen := rfl
@[simp] theorem State.setNewDone_srcDesc (i : Lane) (v : Bool) : (s.setNewDone i v).srcDesc = s.srcDesc := rfl
@[simp] theorem State.setNewDone_cmd (i : Lane) (v : Bool) : (s.setNewDone i v).cmd = s.cmd := rfl
@[simp] theorem State.setNewDone_src (i : Lane) (v : Bool) : (s.setNewDone i v).src = s.src := rfl
@[simp] theorem State.setNewDone_host (i : Lane) (v : Bool) : (s.setNewDone i v).host = s.host := rfl
@[simp] theorem State.setNewDone_hostData (i : Lane) (v : Bool) : (s.setNewDone i v).hostData = s.hostData := rfl
@[simp] theorem State.setNewDone_issue (i : Lane) (v : Bool) : (s.setNewDone i v).issue = s.issue := rfl

@[simp] theorem State.setDigest_params (i : Lane) (x : WordArray) : (s.setDigest i x).params = s.params := rfl
@[simp] theorem State.setDigest_status (i : Lane) (x : WordArray) : (s.setDigest i x).status = s.status := rfl
@[simp] theorem State.setDigest_seq (i : Lane) (x : WordArray) : (s.setDigest i x).seq = s.seq := rfl
@[simp] theorem State.setDigest_ctx (i : Lane) (x : WordArray) : (s.setDigest i x).ctx = s.ctx := rfl
@[simp] theorem State.setDigest_sc (i : Lane) (x : WordArray) : (s.setDigest i x).sc = s.sc := rfl
@[simp] theorem State.setDigest_newDone (i : Lane) (x : WordArray) : (s.setDigest i x).newDone = s.newDone := rfl
@[simp] theorem State.setDigest_blk (i : Lane) (x : WordArray) : (s.setDigest i x).blk = s.blk := rfl
@[simp] theorem State.setDigest_w (i : Lane) (x : WordArray) : (s.setDigest i x).w = s.w := rfl
@[simp] theorem State.setDigest_lw (i : Lane) (x : WordArray) : (s.setDigest i x).lw = s.lw := rfl
@[simp] theorem State.setDigest_ls (i : Lane) (x : WordArray) : (s.setDigest i x).ls = s.ls := rfl
@[simp] theorem State.setDigest_dig (i : Lane) (x : WordArray) : (s.setDigest i x).dig = s.dig.set i (some x) := rfl
@[simp] theorem State.setDigest_out (i : Lane) (x : WordArray) : (s.setDigest i x).out = s.out := rfl
@[simp] theorem State.setDigest_outLen (i : Lane) (x : WordArray) : (s.setDigest i x).outLen = s.outLen := rfl
@[simp] theorem State.setDigest_srcDesc (i : Lane) (x : WordArray) : (s.setDigest i x).srcDesc = s.srcDesc := rfl
@[simp] theorem State.setDigest_cmd (i : Lane) (x : WordArray) : (s.setDigest i x).cmd = s.cmd := rfl
@[simp] theorem State.setDigest_src (i : Lane) (x : WordArray) : (s.setDigest i x).src = s.src := rfl
@[simp] theorem State.setDigest_host (i : Lane) (x : WordArray) : (s.setDigest i x).host = s.host := rfl
@[simp] theorem State.setDigest_hostData (i : Lane) (x : WordArray) : (s.setDigest i x).hostData = s.hostData := rfl
@[simp] theorem State.setDigest_issue (i : Lane) (x : WordArray) : (s.setDigest i x).issue = s.issue := rfl

@[simp] theorem State.raise_params (e : CoreError) : (s.raise e).params = s.params := rfl
@[simp] theorem State.raise_status (e : CoreError) : (s.raise e).status = statusWord .failed e.err e.info := rfl
@[simp] theorem State.raise_seq (e : CoreError) : (s.raise e).seq = ⟨.failed, 0⟩ := rfl
@[simp] theorem State.raise_ctx (e : CoreError) : (s.raise e).ctx = s.ctx := rfl
@[simp] theorem State.raise_sc (e : CoreError) : (s.raise e).sc = s.sc := rfl
@[simp] theorem State.raise_newDone (e : CoreError) : (s.raise e).newDone = s.newDone := rfl
@[simp] theorem State.raise_blk (e : CoreError) : (s.raise e).blk = s.blk := rfl
@[simp] theorem State.raise_w (e : CoreError) : (s.raise e).w = s.w := rfl
@[simp] theorem State.raise_lw (e : CoreError) : (s.raise e).lw = s.lw := rfl
@[simp] theorem State.raise_ls (e : CoreError) : (s.raise e).ls = s.ls := rfl
@[simp] theorem State.raise_dig (e : CoreError) : (s.raise e).dig = s.dig := rfl
@[simp] theorem State.raise_out (e : CoreError) : (s.raise e).out = s.out := rfl
@[simp] theorem State.raise_outLen (e : CoreError) : (s.raise e).outLen = s.outLen := rfl
@[simp] theorem State.raise_srcDesc (e : CoreError) : (s.raise e).srcDesc = s.srcDesc := rfl
@[simp] theorem State.raise_cmd (e : CoreError) : (s.raise e).cmd = s.cmd := rfl
@[simp] theorem State.raise_src (e : CoreError) : (s.raise e).src = s.src := rfl
@[simp] theorem State.raise_host (e : CoreError) : (s.raise e).host = s.host := rfl
@[simp] theorem State.raise_hostData (e : CoreError) : (s.raise e).hostData = s.hostData := rfl
@[simp] theorem State.raise_issue (e : CoreError) : (s.raise e).issue = s.issue := rfl

@[simp] theorem State.raiseInternal_params (e : CoreError) : (s.raiseInternal e).params = s.params := rfl
@[simp] theorem State.raiseInternal_status (e : CoreError) : (s.raiseInternal e).status = statusWord .failed e.err e.info := rfl
@[simp] theorem State.raiseInternal_seq (e : CoreError) : (s.raiseInternal e).seq = ⟨.failed, 0⟩ := rfl
@[simp] theorem State.raiseInternal_ctx (e : CoreError) : (s.raiseInternal e).ctx = s.ctx := rfl
@[simp] theorem State.raiseInternal_sc (e : CoreError) : (s.raiseInternal e).sc = s.sc := rfl
@[simp] theorem State.raiseInternal_newDone (e : CoreError) : (s.raiseInternal e).newDone = s.newDone := rfl
@[simp] theorem State.raiseInternal_blk (e : CoreError) : (s.raiseInternal e).blk = Vector.replicate 8 none := rfl
@[simp] theorem State.raiseInternal_w (e : CoreError) : (s.raiseInternal e).w = none := rfl
@[simp] theorem State.raiseInternal_lw (e : CoreError) : (s.raiseInternal e).lw = none := rfl
@[simp] theorem State.raiseInternal_ls (e : CoreError) : (s.raiseInternal e).ls = none := rfl
@[simp] theorem State.raiseInternal_dig (e : CoreError) : (s.raiseInternal e).dig = Vector.replicate 8 none := rfl
@[simp] theorem State.raiseInternal_out (e : CoreError) : (s.raiseInternal e).out = s.out := rfl
@[simp] theorem State.raiseInternal_outLen (e : CoreError) : (s.raiseInternal e).outLen = s.outLen := rfl
@[simp] theorem State.raiseInternal_srcDesc (e : CoreError) : (s.raiseInternal e).srcDesc = s.srcDesc := rfl
@[simp] theorem State.raiseInternal_cmd (e : CoreError) : (s.raiseInternal e).cmd = s.cmd := rfl
@[simp] theorem State.raiseInternal_src (e : CoreError) : (s.raiseInternal e).src = s.src := rfl
@[simp] theorem State.raiseInternal_host (e : CoreError) : (s.raiseInternal e).host = s.host := rfl
@[simp] theorem State.raiseInternal_hostData (e : CoreError) : (s.raiseInternal e).hostData = s.hostData := rfl
@[simp] theorem State.raiseInternal_issue (e : CoreError) : (s.raiseInternal e).issue = s.issue := rfl

@[simp] theorem State.beginCommand_params : (s.beginCommand).params = s.params := rfl
@[simp] theorem State.beginCommand_status : (s.beginCommand).status = statusWord .busy 0 0 := rfl
@[simp] theorem State.beginCommand_seq : (s.beginCommand).seq = s.seq := rfl
@[simp] theorem State.beginCommand_ctx : (s.beginCommand).ctx = s.ctx := rfl
@[simp] theorem State.beginCommand_sc : (s.beginCommand).sc = s.sc := rfl
@[simp] theorem State.beginCommand_newDone : (s.beginCommand).newDone = s.newDone := rfl
@[simp] theorem State.beginCommand_blk : (s.beginCommand).blk = s.blk := rfl
@[simp] theorem State.beginCommand_w : (s.beginCommand).w = s.w := rfl
@[simp] theorem State.beginCommand_lw : (s.beginCommand).lw = s.lw := rfl
@[simp] theorem State.beginCommand_ls : (s.beginCommand).ls = s.ls := rfl
@[simp] theorem State.beginCommand_dig : (s.beginCommand).dig = s.dig := rfl
@[simp] theorem State.beginCommand_out : (s.beginCommand).out = Vector.replicate 8 none := rfl
@[simp] theorem State.beginCommand_outLen : (s.beginCommand).outLen = none := rfl
@[simp] theorem State.beginCommand_srcDesc : (s.beginCommand).srcDesc = s.srcDesc := rfl
@[simp] theorem State.beginCommand_cmd : (s.beginCommand).cmd = s.cmd := rfl
@[simp] theorem State.beginCommand_src : (s.beginCommand).src = s.src := rfl
@[simp] theorem State.beginCommand_host : (s.beginCommand).host = s.host := rfl
@[simp] theorem State.beginCommand_hostData : (s.beginCommand).hostData = s.hostData := rfl
@[simp] theorem State.beginCommand_issue : (s.beginCommand).issue = s.issue := rfl

@[simp] theorem State.dropShared_params : (s.dropShared).params = s.params := rfl
@[simp] theorem State.dropShared_status : (s.dropShared).status = s.status := rfl
@[simp] theorem State.dropShared_seq : (s.dropShared).seq = s.seq := rfl
@[simp] theorem State.dropShared_ctx : (s.dropShared).ctx = s.ctx := rfl
@[simp] theorem State.dropShared_sc : (s.dropShared).sc = s.sc := rfl
@[simp] theorem State.dropShared_newDone : (s.dropShared).newDone = s.newDone := rfl
@[simp] theorem State.dropShared_blk : (s.dropShared).blk = s.blk := rfl
@[simp] theorem State.dropShared_w : (s.dropShared).w = none := rfl
@[simp] theorem State.dropShared_lw : (s.dropShared).lw = none := rfl
@[simp] theorem State.dropShared_ls : (s.dropShared).ls = none := rfl
@[simp] theorem State.dropShared_dig : (s.dropShared).dig = s.dig := rfl
@[simp] theorem State.dropShared_out : (s.dropShared).out = s.out := rfl
@[simp] theorem State.dropShared_outLen : (s.dropShared).outLen = s.outLen := rfl
@[simp] theorem State.dropShared_srcDesc : (s.dropShared).srcDesc = s.srcDesc := rfl
@[simp] theorem State.dropShared_cmd : (s.dropShared).cmd = s.cmd := rfl
@[simp] theorem State.dropShared_src : (s.dropShared).src = s.src := rfl
@[simp] theorem State.dropShared_host : (s.dropShared).host = s.host := rfl
@[simp] theorem State.dropShared_hostData : (s.dropShared).hostData = s.hostData := rfl
@[simp] theorem State.dropShared_issue : (s.dropShared).issue = s.issue := rfl

@[simp] theorem State.complete_params (a : Alg) : (s.complete a).params = s.params := rfl
@[simp] theorem State.complete_status (a : Alg) : (s.complete a).status = statusWord .done 0 0 := rfl
@[simp] theorem State.complete_seq (a : Alg) : (s.complete a).seq = s.seq := rfl
@[simp] theorem State.complete_ctx (a : Alg) : (s.complete a).ctx = s.ctx := rfl
@[simp] theorem State.complete_sc (a : Alg) : (s.complete a).sc = s.sc := rfl
@[simp] theorem State.complete_newDone (a : Alg) : (s.complete a).newDone = s.newDone := rfl
@[simp] theorem State.complete_blk (a : Alg) : (s.complete a).blk = s.blk := rfl
@[simp] theorem State.complete_w (a : Alg) : (s.complete a).w = s.w := rfl
@[simp] theorem State.complete_lw (a : Alg) : (s.complete a).lw = s.lw := rfl
@[simp] theorem State.complete_ls (a : Alg) : (s.complete a).ls = s.ls := rfl
@[simp] theorem State.complete_dig (a : Alg) : (s.complete a).dig = s.dig := rfl
@[simp] theorem State.complete_out (a : Alg) : (s.complete a).out = s.out := rfl
@[simp] theorem State.complete_outLen (a : Alg) : (s.complete a).outLen = some (BitVec.ofNat 8 a.digestBytes) := rfl
@[simp] theorem State.complete_srcDesc (a : Alg) : (s.complete a).srcDesc = s.srcDesc := rfl
@[simp] theorem State.complete_cmd (a : Alg) : (s.complete a).cmd = s.cmd := rfl
@[simp] theorem State.complete_src (a : Alg) : (s.complete a).src = s.src := rfl
@[simp] theorem State.complete_host (a : Alg) : (s.complete a).host = s.host := rfl
@[simp] theorem State.complete_hostData (a : Alg) : (s.complete a).hostData = s.hostData := rfl
@[simp] theorem State.complete_issue (a : Alg) : (s.complete a).issue = s.issue := rfl

@[simp] theorem State.setSeq_params (q : Seq) : (s.setSeq q).params = s.params := rfl
@[simp] theorem State.setSeq_status (q : Seq) : (s.setSeq q).status = s.status := rfl
@[simp] theorem State.setSeq_seq (q : Seq) : (s.setSeq q).seq = q := rfl
@[simp] theorem State.setSeq_ctx (q : Seq) : (s.setSeq q).ctx = s.ctx := rfl
@[simp] theorem State.setSeq_sc (q : Seq) : (s.setSeq q).sc = s.sc := rfl
@[simp] theorem State.setSeq_newDone (q : Seq) : (s.setSeq q).newDone = s.newDone := rfl
@[simp] theorem State.setSeq_blk (q : Seq) : (s.setSeq q).blk = s.blk := rfl
@[simp] theorem State.setSeq_w (q : Seq) : (s.setSeq q).w = s.w := rfl
@[simp] theorem State.setSeq_lw (q : Seq) : (s.setSeq q).lw = s.lw := rfl
@[simp] theorem State.setSeq_ls (q : Seq) : (s.setSeq q).ls = s.ls := rfl
@[simp] theorem State.setSeq_dig (q : Seq) : (s.setSeq q).dig = s.dig := rfl
@[simp] theorem State.setSeq_out (q : Seq) : (s.setSeq q).out = s.out := rfl
@[simp] theorem State.setSeq_outLen (q : Seq) : (s.setSeq q).outLen = s.outLen := rfl
@[simp] theorem State.setSeq_srcDesc (q : Seq) : (s.setSeq q).srcDesc = s.srcDesc := rfl
@[simp] theorem State.setSeq_cmd (q : Seq) : (s.setSeq q).cmd = s.cmd := rfl
@[simp] theorem State.setSeq_src (q : Seq) : (s.setSeq q).src = s.src := rfl
@[simp] theorem State.setSeq_host (q : Seq) : (s.setSeq q).host = s.host := rfl
@[simp] theorem State.setSeq_hostData (q : Seq) : (s.setSeq q).hostData = s.hostData := rfl
@[simp] theorem State.setSeq_issue (q : Seq) : (s.setSeq q).issue = s.issue := rfl

@[simp] theorem State.give_params {n : Nat} (v : BitVec n) : (s.give v).params = s.params := rfl
@[simp] theorem State.give_status {n : Nat} (v : BitVec n) : (s.give v).status = s.status := rfl
@[simp] theorem State.give_seq {n : Nat} (v : BitVec n) : (s.give v).seq = s.seq := rfl
@[simp] theorem State.give_ctx {n : Nat} (v : BitVec n) : (s.give v).ctx = s.ctx := rfl
@[simp] theorem State.give_sc {n : Nat} (v : BitVec n) : (s.give v).sc = s.sc := rfl
@[simp] theorem State.give_newDone {n : Nat} (v : BitVec n) : (s.give v).newDone = s.newDone := rfl
@[simp] theorem State.give_blk {n : Nat} (v : BitVec n) : (s.give v).blk = s.blk := rfl
@[simp] theorem State.give_w {n : Nat} (v : BitVec n) : (s.give v).w = s.w := rfl
@[simp] theorem State.give_lw {n : Nat} (v : BitVec n) : (s.give v).lw = s.lw := rfl
@[simp] theorem State.give_ls {n : Nat} (v : BitVec n) : (s.give v).ls = s.ls := rfl
@[simp] theorem State.give_dig {n : Nat} (v : BitVec n) : (s.give v).dig = s.dig := rfl
@[simp] theorem State.give_out {n : Nat} (v : BitVec n) : (s.give v).out = s.out := rfl
@[simp] theorem State.give_outLen {n : Nat} (v : BitVec n) : (s.give v).outLen = s.outLen := rfl
@[simp] theorem State.give_srcDesc {n : Nat} (v : BitVec n) : (s.give v).srcDesc = s.srcDesc := rfl
@[simp] theorem State.give_cmd {n : Nat} (v : BitVec n) : (s.give v).cmd = s.cmd := rfl
@[simp] theorem State.give_src {n : Nat} (v : BitVec n) : (s.give v).src = s.src := rfl
@[simp] theorem State.give_host {n : Nat} (v : BitVec n) : (s.give v).host = s.host := rfl
@[simp] theorem State.give_hostData {n : Nat} (v : BitVec n) : (s.give v).hostData = some (v.setWidth 64) := rfl
@[simp] theorem State.give_issue {n : Nat} (v : BitVec n) : (s.give v).issue = s.issue := rfl

@[simp] theorem State.applyReset_params : (s.applyReset).params = s.params := rfl
@[simp] theorem State.applyReset_status : (s.applyReset).status = (State.resetWith s.params).status := rfl
@[simp] theorem State.applyReset_seq : (s.applyReset).seq = (State.resetWith s.params).seq := rfl
@[simp] theorem State.applyReset_ctx : (s.applyReset).ctx = (State.resetWith s.params).ctx := rfl
@[simp] theorem State.applyReset_sc : (s.applyReset).sc = (State.resetWith s.params).sc := rfl
@[simp] theorem State.applyReset_newDone : (s.applyReset).newDone = (State.resetWith s.params).newDone := rfl
@[simp] theorem State.applyReset_blk : (s.applyReset).blk = (State.resetWith s.params).blk := rfl
@[simp] theorem State.applyReset_w : (s.applyReset).w = (State.resetWith s.params).w := rfl
@[simp] theorem State.applyReset_lw : (s.applyReset).lw = (State.resetWith s.params).lw := rfl
@[simp] theorem State.applyReset_ls : (s.applyReset).ls = (State.resetWith s.params).ls := rfl
@[simp] theorem State.applyReset_dig : (s.applyReset).dig = (State.resetWith s.params).dig := rfl
@[simp] theorem State.applyReset_out : (s.applyReset).out = (State.resetWith s.params).out := rfl
@[simp] theorem State.applyReset_outLen : (s.applyReset).outLen = (State.resetWith s.params).outLen := rfl
@[simp] theorem State.applyReset_srcDesc : (s.applyReset).srcDesc = (State.resetWith s.params).srcDesc := rfl
@[simp] theorem State.applyReset_cmd : (s.applyReset).cmd = (State.resetWith s.params).cmd := rfl
@[simp] theorem State.applyReset_src : (s.applyReset).src = s.src := rfl
@[simp] theorem State.applyReset_host : (s.applyReset).host = s.host := rfl
@[simp] theorem State.applyReset_hostData : (s.applyReset).hostData = s.hostData := rfl
@[simp] theorem State.applyReset_issue : (s.applyReset).issue = (State.resetWith s.params).issue := rfl

end Sys2Proof.Machine
end

