-- ==== Sys2Proof/Laws/Ops.lean ====
section
/-! SUPPORT. What the shared operations can do: one lemma per operation, cited instead of unfolding it. -/

namespace Sys2Proof.Machine

/-! ### Results -/

@[simp] theorem andThen_of_next (s : State) (f : State → Result) : andThen (.next s) f = f s := rfl

@[simp] theorem andThen_of_fault (e : Fault) (f : State → Result) : andThen (.fault e) f = .fault e := rfl

@[simp] theorem andThen_of_refused (e : Refusal) (f : State → Result) :
    andThen (.refused e) f = .refused e := rfl

/-- `andThen` answers a next state exactly when both parts do. -/
theorem andThen_eq_next {r : Result} {f : State → Result} {t : State} :
    andThen r f = .next t ↔ ∃ s, r = .next s ∧ f s = .next t := by
  cases r <;> simp [andThen]

@[simp] theorem withValue_some {α : Type} (e : Element) (x : α) (f : α → Result) :
    withValue e (some x) f = f x := rfl

@[simp] theorem withValue_none {α : Type} (e : Element) (f : α → Result) :
    withValue e none f = .fault (.noValue e) := rfl

/-- A read answers a next state exactly when the element has a value and the reader answers one. -/
theorem withValue_eq_next {α : Type} {e : Element} {v : Option α} {f : α → Result} {t : State} :
    withValue e v f = .next t ↔ ∃ x, v = some x ∧ f x = .next t := by
  cases v <;> simp [withValue]

/-- A micro-operation answers a next state exactly when its form is legal and its body answers one. -/
theorem microOperation_eq_next {op : Op} {a : Alg} {k : LaneCount} {i : Lane} {body : Result} {t : State} :
    microOperation op a k i body = .next t ↔ formOk op a k i = true ∧ body = .next t := by
  unfold microOperation
  split <;> simp_all

theorem microOperation_of_ok {op : Op} {a : Alg} {k : LaneCount} {i : Lane} (h : formOk op a k i = true)
    (body : Result) : microOperation op a k i body = body := by
  simp [microOperation, h]

theorem microOperation_of_bad {op : Op} {a : Alg} {k : LaneCount} {i : Lane} (h : formOk op a k i = false)
    (body : Result) : microOperation op a k i body = .refused .illegalMicroOperation := by
  simp [microOperation, h]

/-- A host move that must wait for the end of a command answers a next state exactly when none runs. -/
theorem whenNotBusy_eq_next {s t : State} {r : Result} :
    whenNotBusy s r = .next t ↔ s.busy = false ∧ r = .next t := by
  unfold whenNotBusy
  split <;> simp_all

/-! ### Arrays -/

@[simp] theorem wordsOf_ofWords (w : Width) (ws : List (Word w)) :
    wordsOf w ws.length (WordArray.ofWords w ws) = some ws := by
  cases w <;> simp [wordsOf, WordArray.ofWords, WordArray.words?]

/-- Reading back what was written, at the length it has. -/
theorem wordsOf_ofWords_of_length {w : Width} {n : Nat} {ws : List (Word w)} (h : ws.length = n) :
    wordsOf w n (WordArray.ofWords w ws) = some ws := by
  subst h; simp

/-- What a read of words finds is the array's words, of the length asked for. -/
theorem wordsOf_eq_some {w : Width} {n : Nat} {x : WordArray} {ws : List (Word w)} :
    wordsOf w n x = some ws ↔ x = WordArray.ofWords w ws ∧ ws.length = n := by
  cases w <;> cases x <;> simp only [wordsOf, WordArray.words?, WordArray.ofWords] <;>
    (try split) <;> simp_all <;> (intro h; subst h; assumption)

/-- Reading back vectors, at the shape they have. -/
theorem vectorsOf_ofVectors {w : Width} {n K : Nat} {vs : List (List (Word w))} (h : vs.length = n)
    (hK : ∀ v ∈ vs, v.length = K) : vectorsOf w n K (VectorArray.ofVectors w vs) = some vs := by
  cases w <;> simp [vectorsOf, VectorArray.ofVectors, VectorArray.vectors?, h] <;> exact hK

/-- What a read of vectors finds is the array's vectors, of the shape asked for. -/
theorem vectorsOf_eq_some {w : Width} {n K : Nat} {x : VectorArray} {vs : List (List (Word w))} :
    vectorsOf w n K x = some vs ↔
      x = VectorArray.ofVectors w vs ∧ vs.length = n ∧ ∀ v ∈ vs, v.length = K := by
  cases w <;> cases x <;> simp only [vectorsOf, VectorArray.vectors?, VectorArray.ofVectors] <;>
    (try split) <;> simp_all <;> (intro h; subst h; simp_all)

/-! ### Byte spaces -/

@[simp] theorem readByte_nil (a : Nat) : readByte [] a = unlistedByte := rfl

/-- Addresses below a canonical space's first are unlisted. -/
theorem readByte_of_wfFrom {lo : Nat} {m : Memory} (h : Memory.wfFrom lo m = true) {a : Nat} (ha : a < lo) :
    readByte m a = unlistedByte := by
  induction m generalizing lo with
  | nil => rfl
  | cons c m ih =>
    obtain ⟨b, v⟩ := c
    simp only [Memory.wfFrom, Bool.and_eq_true, decide_eq_true_eq] at h
    have hne : a ≠ b := by omega
    simp only [readByte, hne, if_false]
    exact ih h.2 (by omega)

/-- A byte written is read back. -/
theorem readByte_writeByte_same {lo : Nat} {m : Memory} (h : Memory.wfFrom lo m = true) (a : Nat) (v : Byte) :
    readByte (writeByte m a v) a = v := by
  induction m generalizing lo with
  | nil =>
    simp only [writeByte]
    split <;> simp_all [readByte]
  | cons c m ih =>
    obtain ⟨b, u⟩ := c
    simp only [Memory.wfFrom, Bool.and_eq_true, decide_eq_true_eq] at h
    have hlow : a < b + 1 → readByte m a = unlistedByte := readByte_of_wfFrom h.2
    simp only [writeByte]
    split
    · split
      · rename_i hab hv
        have hne : a ≠ b := by omega
        simp only [readByte, hne, if_false, hv]
        exact hlow (by omega)
      · simp [readByte]
    · split
      · split
        · rename_i hab hv; rw [hlow (by omega), hv]
        · simp [readByte]
      · rename_i hlt hne
        simp only [readByte, hne, if_false]
        exact ih h.2

/-- Every other address reads as before. -/
theorem readByte_writeByte_other {m : Memory} {a b : Nat} (hab : b ≠ a) (v : Byte) :
    readByte (writeByte m a v) b = readByte m b := by
  induction m with
  | nil =>
    simp only [writeByte]
    split <;> simp_all [readByte]
  | cons c m ih =>
    obtain ⟨d, u⟩ := c
    simp only [writeByte]
    split
    · split <;> simp_all [readByte]
    · split
      · rename_i hda
        have : b ≠ d := by omega
        split <;> simp_all [readByte]
      · simp only [readByte, ih]

/-- A write keeps the canonical form. -/
theorem wfFrom_writeByte {lo : Nat} {m : Memory} (h : Memory.wfFrom lo m = true) {a : Nat} (ha : lo ≤ a)
    (v : Byte) : Memory.wfFrom lo (writeByte m a v) = true := by
  induction m generalizing lo with
  | nil =>
    simp only [writeByte]
    split <;> simp_all [Memory.wfFrom]
  | cons c m ih =>
    obtain ⟨b, u⟩ := c
    have h' := h
    simp only [Memory.wfFrom, Bool.and_eq_true, decide_eq_true_eq] at h
    obtain ⟨⟨hlo, hu⟩, hm⟩ := h
    simp only [writeByte]
    split
    · split
      · exact h'
      · rename_i hlt hv
        simp only [Memory.wfFrom, Bool.and_eq_true, decide_eq_true_eq]
        exact ⟨⟨ha, hv⟩, ⟨by omega, hu⟩, hm⟩
    · split
      · rename_i hlt hab
        split
        · clear ih
          cases m with
          | nil => rfl
          | cons d m =>
            obtain ⟨e, x⟩ := d
            simp only [Memory.wfFrom, Bool.and_eq_true, decide_eq_true_eq] at hm ⊢
            exact ⟨⟨by omega, hm.1.2⟩, hm.2⟩
        · rename_i hv
          subst hab
          simp only [Memory.wfFrom, Bool.and_eq_true, decide_eq_true_eq]
          exact ⟨⟨ha, hv⟩, hm⟩
      · rename_i hlt hne
        simp only [Memory.wfFrom, Bool.and_eq_true, decide_eq_true_eq]
        exact ⟨⟨hlo, hu⟩, ih hm (by omega)⟩

/-- Every operation over a byte space keeps the canonical form: a read changes nothing, and a write this. -/
theorem wf_writeByte {m : Memory} (h : m.wf = true) (a : Nat) (v : Byte) : (writeByte m a v).wf = true :=
  wfFrom_writeByte h (Nat.zero_le a) v

/-- Bytes of different lanes or offsets stand at different addresses (R50; log entry 3). -/
theorem sourceAddress_ne {i j : Lane} {p q : Nat} (hp : p < sourceSpace) (hq : q < sourceSpace) (h : j ≠ i ∨ q ≠ p) :
    sourceAddress j q ≠ sourceAddress i p := by
  have hv : j.val = i.val → j = i := fun e => Fin.ext e
  simp only [sourceAddress, sourceSpace] at hp hq ⊢
  rcases h with h | h
  · have : j.val ≠ i.val := fun e => h (hv e)
    omega
  · omega

/-- The host's change of a source byte: all it can do (R50, R228). -/
theorem writeSourceByte_of_not_busy {s : State} (hb : s.busy = false) (i : Lane) (p : Nat) (b : Byte) :
    writeSourceByte i p b s =
      if p < sourceSpace then .next { s with src := writeByte s.src (sourceAddress i p) b } else .fault (.sourceOffset i) := by
  simp [writeSourceByte, whenNotBusy, hb]

/-- A running command is not done (R21). -/
theorem isDone_of_busy {s : State} (h : s.busy = true) : s.isDone = false := by
  simp only [State.busy, State.isDone, beq_iff_eq] at h ⊢
  rw [h]; rfl

/-- Outside `DONE` no byte of `OUT` has a value for the host (R37, R230). -/
theorem readOutByte_of_not_done {s : State} (h : s.isDone = false) (i : Lane) (p : Nat) :
    readOutByte i p s = .fault (.noValue (.out i)) := by
  simp [readOutByte, outByte?, h]

/-- Outside `DONE` `OUTLEN` has no value for the host (R37, R230). -/
theorem readOutLen_of_not_done {s : State} (h : s.isDone = false) : readRegister 3 s = .fault (.noValue .outLen) := by
  simp [readRegister, h]

theorem resetWith_src_wf (p : Params) : (State.resetWith p).src.wf = true := rfl

@[simp] theorem sourceBytes_length (m : Memory) (i : Lane) (p n : Nat) : (sourceBytes m i p n).length = n := by
  simp [sourceBytes]

@[simp] theorem bytesOfWord_length (o : ByteOrder) (n : Nat) {w : Nat} (x : BitVec w) :
    (bytesOfWord o n x).length = n := by
  cases o <;> simp [bytesOfWord]

@[simp] theorem blockWords_length (o : ByteOrder) (w : Width) (blk : List Byte) :
    (blockWords o w blk).length = 16 := by
  simp [blockWords]

end Sys2Proof.Machine
end

