-- ==== Sys2Proof/Laws/Dispatch.lean ====
section
/-! SUPPORT. `exec` by operation: the six arms of an operation are its meaning at the six algorithms. -/

namespace Sys2Proof

/-- An instruction is the one its fields name. -/
@[simp] theorem ofFields_fields (i : Instr) : Instr.ofFields i.fields.op i.fields.alg i.fields.k i.fields.lane = i := by
  cases i <;> rfl

/-- The fields of an instruction whose form is legal are those it was made from (R76). -/
theorem fields_ofFields {op : Op} {a : Alg} {k : LaneCount} {i : Lane} (h : formOk op a k i = true) :
    (Instr.ofFields op a k i).fields = ⟨op, a, k, i⟩ := by
  cases op <;> cases a <;> simp_all [formOk, laneCountOk, laneOk, Instr.ofFields, Instr.fields]

@[simp] theorem op_ofFields (op : Op) (a : Alg) (k : LaneCount) (i : Lane) :
    (Instr.ofFields op a k i).fields.op = op := by
  cases op <;> cases a <;> rfl

@[simp] theorem isCommand_ofFields (op : Op) (a : Alg) (k : LaneCount) (i : Lane) :
    (Instr.ofFields op a k i).isCommand = op.isCommand := by
  simp [Instr.isCommand]

end Sys2Proof

namespace Sys2Proof.Machine

variable (a : Alg) (k : LaneCount) (i : Lane) (s : State)

theorem exec_hash : exec (.ofFields .hash a k i) s = acceptHash a s := by cases a <;> rfl

theorem exec_hashpar : exec (.ofFields .hashpar a k i) s = acceptHashpar a k s := by cases a <;> rfl

theorem exec_inits : exec (.ofFields .inits a k i) s = initScalar a k i s := by cases a <;> rfl

theorem exec_initl : exec (.ofFields .initl a k i) s = initLanes a k s := by cases a <;> rfl

theorem exec_prep : exec (.ofFields .prep a k i) s = prepareBlock a k i s := by cases a <;> rfl

theorem exec_sched : exec (.ofFields .sched a k i) s = buildSchedule a k i s := by cases a <;> rfl

theorem exec_comp : exec (.ofFields .comp a k i) s = compressScalar a k i s := by cases a <;> rfl

theorem exec_pack : exec (.ofFields .pack a k i) s = packLanes a k s := by cases a <;> rfl

theorem exec_compl : exec (.ofFields .compl a k i) s = compressLanes a k s := by cases a <;> rfl

theorem exec_snap : exec (.ofFields .snap a k i) s = snapshotLane a k i s := by cases a <;> rfl

theorem exec_final : exec (.ofFields .final a k i) s = finalizeDigest a k i s := by cases a <;> rfl

/-- Every instruction is its operation at its algorithm: a claim about `exec` needs the eleven operations only. -/
theorem exec_eq_ofFields (j : Instr) :
    exec j s = exec (.ofFields j.fields.op j.fields.alg j.fields.k j.fields.lane) s := by simp

end Sys2Proof.Machine
end

