-- ==== Sys2Proof/Laws/Units.lean ====
section
/-! SUPPORT. The two units: rotates as the library knows them, and each vector operation lane by lane
(00_scope rules R10, R12). -/

namespace Sys2Proof

variable {w : Nat}

/-- The amount of a rotate is never 0 or w (R10). -/
theorem Amount.bounds (n : Amount w) : 0 < n.val ∧ n.val < w := n.property

@[simp] theorem Amount.rest_val (n : Amount w) : n.rest.val = w - n.val := rfl

/-- The scalar `ROTL` is the library's rotate to the left. -/
theorem rotl_scalarUnit (n : Amount w) (x : BitVec w) : rotl (scalarUnit w) n x = x.rotateLeft n.val := by
  have h := n.property
  simp [rotl, scalarUnit, BitVec.rotateLeft_def, Nat.mod_eq_of_lt h.2]

/-- The scalar `ROTR` is the library's rotate to the right. -/
theorem rotr_scalarUnit (n : Amount w) (x : BitVec w) : rotr (scalarUnit w) n x = x.rotateRight n.val := by
  have h := n.property
  simp [rotr, scalarUnit, BitVec.rotateRight_def, Nat.mod_eq_of_lt h.2]

/-- Two units whose operations keep a relation between their carriers. -/
structure UnitRel {α β : Type} (u : WordUnit w α) (v : WordUnit w β) (R : α → β → Prop) : Prop where
  add : ∀ {x x' y y'}, R x x' → R y y' → R (u.add x y) (v.add x' y')
  and : ∀ {x x' y y'}, R x x' → R y y' → R (u.and x y) (v.and x' y')
  or : ∀ {x x' y y'}, R x x' → R y y' → R (u.or x y) (v.or x' y')
  xor : ∀ {x x' y y'}, R x x' → R y y' → R (u.xor x y) (v.xor x' y')
  andnot : ∀ {x x' y y'}, R x x' → R y y' → R (u.andnot x y) (v.andnot x' y')
  not : ∀ {x x'}, R x x' → R (u.not x) (v.not x')
  shl : ∀ n {x x'}, R x x' → R (u.shl n x) (v.shl n x')
  shr : ∀ n {x x'}, R x x' → R (u.shr n x) (v.shr n x')
  broadcast : ∀ x, R (u.broadcast x) (v.broadcast x)

/-- `x` is lane `j` of the K-lane vector `V`. -/
def IsLane (K j : Nat) (V : List (BitVec w)) (x : BitVec w) : Prop := V.length = K ∧ V[j]? = some x

/-- No vector operation moves data between lanes: lane `j` of its result is the scalar result of lane `j` (R12). -/
theorem vectorUnit_lane {K j : Nat} (hj : j < K) : UnitRel (vectorUnit w K) (scalarUnit w) (IsLane K j) := by
  have zip (f : BitVec w → BitVec w → BitVec w) {x y : List (BitVec w)} {x' y' : BitVec w}
      (hx : IsLane K j x x') (hy : IsLane K j y y') : IsLane K j (List.zipWith f x y) (f x' y') := by
    obtain ⟨hxl, hx⟩ := hx
    obtain ⟨hyl, hy⟩ := hy
    exact ⟨by simp [hxl, hyl], by simp [List.getElem?_zipWith, hx, hy]⟩
  have map (f : BitVec w → BitVec w) {x : List (BitVec w)} {x' : BitVec w} (hx : IsLane K j x x') :
      IsLane K j (x.map f) (f x') := ⟨by simp [hx.1], by simp [hx.2]⟩
  have const (x : BitVec w) : IsLane K j (List.replicate K x) x :=
    ⟨by simp, by simp [hj]⟩
  refine ⟨zip _, zip _, zip _, zip _, zip _, fun hx => ?_, fun n _ _ => map _, fun n _ _ => map _, const⟩
  have h := zip (scalarUnit w).xor hx (const (BitVec.allOnes w))
  simpa [vectorUnit, scalarUnit] using h

end Sys2Proof
end

