-- ==== Sys2Proof/Laws/Rounds.lean ====
section
/-! SUPPORT. The engines: lengths, and that related units give related schedules and states. The relation is the
form in which every claim about the lane path against the scalar path is proved (43_lane_compressor rules R153,
R155). -/

namespace Sys2Proof

variable {w : Nat} {α β : Type}

@[simp] theorem extend_length (f : Family) (u : WordUnit f.width.bits α) (n : Nat) (ws : List α) :
    (extend f u n ws).length = ws.length + n := by
  induction n generalizing ws with
  | zero => rfl
  | succ n ih => simp [extend, ih]; omega

/-- A schedule has `S` words (R131). -/
theorem expand_length (f : Family) (u : WordUnit f.width.bits α) {first : List α} (h : first.length = 16) :
    (expand f u first).length = f.steps := by
  cases f <;> simp [expand, h, Family.steps]

/-- A step keeps the number of registers. -/
@[simp] theorem stepRegs_length (f : Family) (u : WordUnit f.width.bits α) (t : Nat) (r : List α) (x : α) :
    (stepRegs f u t r x).length = r.length := by
  cases f <;> simp only [stepRegs, stepMd5, stepSha1, stepSha2] <;> split <;> simp

@[simp] theorem rounds_length (f : Family) (u : WordUnit f.width.bits α) (t : Nat) (r ws : List α) :
    (rounds f u t r ws).length = r.length := by
  induction ws generalizing t r with
  | nil => rfl
  | cons x xs ih => simp [rounds, ih]

/-- A compression keeps the number of state words (R141). -/
@[simp] theorem compress_length (f : Family) (u : WordUnit f.width.bits α) (h ws : List α) :
    (compress f u h ws).length = h.length := by
  simp [compress]

/-- The words a schedule starts from are kept (R131). -/
theorem extend_prefix (f : Family) (u : WordUnit f.width.bits α) (n : Nat) (ws : List α) {t : Nat}
    (ht : t < ws.length) : (extend f u n ws)[t]? = ws[t]? := by
  induction n generalizing ws with
  | zero => rfl
  | succ n ih =>
    rw [extend, ih _ (by simp; omega), List.getElem?_append_left ht]

/-- Every later word is the recurrence on the words before it (R131). -/
theorem extend_next (f : Family) (u : WordUnit f.width.bits α) (n : Nat) (ws : List α) {t : Nat}
    (h1 : ws.length ≤ t) (h2 : t < ws.length + n) :
    (extend f u n ws)[t]? = some (nextWord f u ((extend f u n ws).take t)) := by
  induction n generalizing ws with
  | zero => omega
  | succ n ih =>
    rw [extend]
    by_cases h : t = ws.length
    · subst h
      rw [extend_prefix _ _ _ _ (by simp)]
      have hpre : (extend f u n (ws ++ [nextWord f u ws])).take ws.length = ws := by
        apply List.ext_getElem?
        intro m
        by_cases hm : m < ws.length
        · rw [List.getElem?_take_of_lt hm, extend_prefix _ _ _ _ (by simp; omega),
            List.getElem?_append_left hm]
        · rw [List.getElem?_eq_none (by simp; omega), List.getElem?_eq_none (by omega)]
      rw [hpre]
      simp
    · exact ih _ (by simp; omega) (by simp; omega)

section Related

variable {u : WordUnit w α} {v : WordUnit w β} {R : α → β → Prop}

theorem UnitRel.rotl (h : UnitRel u v R) (n : Amount w) {x : α} {x' : β} (hx : R x x') :
    R (Sys2Proof.rotl u n x) (Sys2Proof.rotl v n x') := h.or (h.shl n hx) (h.shr n.rest hx)

theorem UnitRel.rotr (h : UnitRel u v R) (n : Amount w) {x : α} {x' : β} (hx : R x x') :
    R (Sys2Proof.rotr u n x) (Sys2Proof.rotr v n x') := h.or (h.shr n hx) (h.shl n.rest hx)

theorem UnitRel.ch (h : UnitRel u v R) {x y z : α} {x' y' z' : β} (hx : R x x') (hy : R y y') (hz : R z z') :
    R (Sys2Proof.ch u x y z) (Sys2Proof.ch v x' y' z') := h.xor (h.and hx hy) (h.andnot hx hz)

theorem UnitRel.maj (h : UnitRel u v R) {x y z : α} {x' y' z' : β} (hx : R x x') (hy : R y y') (hz : R z z') :
    R (Sys2Proof.maj u x y z) (Sys2Proof.maj v x' y' z') :=
  h.xor (h.xor (h.and hx hy) (h.and hx hz)) (h.and hy hz)

theorem UnitRel.parity (h : UnitRel u v R) {x y z : α} {x' y' z' : β} (hx : R x x') (hy : R y y')
    (hz : R z z') : R (Sys2Proof.parity u x y z) (Sys2Proof.parity v x' y' z') := h.xor (h.xor hx hy) hz

theorem UnitRel.bigSigma (h : UnitRel u v R) (n : Amount w × Amount w × Amount w) {x : α} {x' : β}
    (hx : R x x') : R (Sys2Proof.bigSigma u n x) (Sys2Proof.bigSigma v n x') :=
  h.xor (h.xor (h.rotr _ hx) (h.rotr _ hx)) (h.rotr _ hx)

theorem UnitRel.smallSigma (h : UnitRel u v R) (n : Amount w × Amount w × Amount w) {x : α} {x' : β}
    (hx : R x x') : R (Sys2Proof.smallSigma u n x) (Sys2Proof.smallSigma v n x') :=
  h.xor (h.xor (h.rotr _ hx) (h.rotr _ hx)) (h.shr _ hx)

/-- Related lists are related at every index, defaults included. -/
theorem forall₂_getD {xs : List α} {ys : List β} (h : List.Forall₂ R xs ys) {d : α} {d' : β} (hd : R d d')
    (n : Nat) : R (xs.getD n d) (ys.getD n d') := by
  induction h generalizing n with
  | nil => simpa using hd
  | cons hx _ ih => cases n <;> simp_all

end Related

/-- Related units and related words give related next schedule words. -/
theorem nextWord_rel {f : Family} {u : WordUnit f.width.bits α} {v : WordUnit f.width.bits β}
    {R : α → β → Prop} (h : UnitRel u v R) {xs : List α} {ys : List β} (hw : List.Forall₂ R xs ys) :
    R (nextWord f u xs) (nextWord f v ys) := by
  have g : ∀ n, R (xs.getD n (u.broadcast 0)) (ys.getD n (v.broadcast 0)) :=
    forall₂_getD hw (h.broadcast 0)
  have hl := hw.length_eq
  have b : ∀ n, R (wordBack u xs n) (wordBack v ys n) := fun n => by
    simpa [wordBack, hl] using g (ys.length - n)
  cases f with
  | md5 => simpa [nextWord, nextMd5, hl] using g (gMd5 ys.length)
  | sha1 => exact h.rotl _ (h.xor (h.xor (b 3) (b 8)) (h.xor (b 14) (b 16)))
  | sha2x32 =>
    exact h.add (h.add (h.smallSigma _ (b 2)) (b 7)) (h.add (h.smallSigma _ (b 15)) (b 16))
  | sha2x64 =>
    exact h.add (h.add (h.smallSigma _ (b 2)) (b 7)) (h.add (h.smallSigma _ (b 15)) (b 16))

/-- Related units and related first words give related schedules. -/
theorem extend_rel {f : Family} {u : WordUnit f.width.bits α} {v : WordUnit f.width.bits β}
    {R : α → β → Prop} (h : UnitRel u v R) (n : Nat) {xs : List α} {ys : List β}
    (hw : List.Forall₂ R xs ys) : List.Forall₂ R (extend f u n xs) (extend f v n ys) := by
  induction n generalizing xs ys with
  | zero => exact hw
  | succ n ih => exact ih (List.rel_append hw (.cons (nextWord_rel h hw) .nil))

/-- The SHA-2 step, of either width, on related units and registers. -/
theorem stepSha2_rel (p : Sha2 w) {u : WordUnit w α} {v : WordUnit w β} {R : α → β → Prop} (q : UnitRel u v R)
    (t : Nat) {r : List α} {r' : List β} (hr : List.Forall₂ R r r') {x : α} {x' : β} (hx : R x x') :
    List.Forall₂ R (stepSha2 p u t r x) (stepSha2 p v t r' x') := by
  have hl := hr.length_eq
  unfold stepSha2
  split
  · rename_i a b c d e f g h
    simp only [List.forall₂_cons_left_iff, List.forall₂_nil_left_iff] at hr
    obtain ⟨a', _, ha, ⟨b', _, hb, ⟨c', _, hc, ⟨d', _, hd, ⟨e', _, he, ⟨f', _, hf, ⟨g', _, hg, ⟨h', _, hh,
      rfl, rfl⟩, rfl⟩, rfl⟩, rfl⟩, rfl⟩, rfl⟩, rfl⟩, rfl⟩ := hr
    have t1 := q.add (q.add (q.add (q.add hh (q.bigSigma p.bigSigma1 he)) (q.ch he hf hg))
      (q.broadcast (p.k.getD t 0))) hx
    have t2 := q.add (q.bigSigma p.bigSigma0 ha) (q.maj ha hb hc)
    exact .cons (q.add t1 t2) (.cons ha (.cons hb (.cons hc (.cons (q.add hd t1)
      (.cons he (.cons hf (.cons hg .nil)))))))
  · split
    · rename_i hne _ _ _ _ _ _ _ _ _
      simp only [List.length_cons, List.length_nil, List.length_eq_succ_iff, List.length_eq_zero_iff] at hl
      obtain ⟨_, _, rfl, _, _, rfl, _, _, rfl, _, _, rfl, _, _, rfl, _, _, rfl, _, _, rfl, _, _, rfl, rfl⟩ := hl
      exact (hne _ _ _ _ _ _ _ _ rfl).elim
    · exact hr

/-- Related units and related registers give related registers after a step. -/
theorem stepRegs_rel {f : Family} {u : WordUnit f.width.bits α} {v : WordUnit f.width.bits β}
    {R : α → β → Prop} (h : UnitRel u v R) (t : Nat) {r : List α} {r' : List β}
    (hr : List.Forall₂ R r r') {x : α} {x' : β} (hx : R x x') :
    List.Forall₂ R (stepRegs f u t r x) (stepRegs f v t r' x') := by
  have hl := hr.length_eq
  cases f with
  | md5 =>
    simp only [stepRegs, stepMd5]
    split
    · rename_i a b c d
      simp only [List.forall₂_cons_left_iff, List.forall₂_nil_left_iff] at hr
      obtain ⟨a', _, ha, ⟨b', _, hb, ⟨c', _, hc, ⟨d', _, hd, rfl, rfl⟩, rfl⟩, rfl⟩, rfl⟩ := hr
      have hf : R (fMd5 u t b c d) (fMd5 v t b' c' d') := by
        unfold fMd5
        split
        · exact h.or (h.and hb hc) (h.andnot hb hd)
        · split
          · exact h.or (h.and hd hb) (h.andnot hd hc)
          · split
            · exact h.xor (h.xor hb hc) hd
            · exact h.xor hc (h.or hb (h.not hd))
      exact .cons hd (.cons (h.add hb (h.rotl _ (h.add (h.add (h.add ha hf) (h.broadcast _)) hx)))
        (.cons hb (.cons hc .nil)))
    · split
      · rename_i hne _ _ _ _ _
        simp only [List.length_cons, List.length_nil, List.length_eq_succ_iff, List.length_eq_zero_iff] at hl
        obtain ⟨_, _, rfl, _, _, rfl, _, _, rfl, _, _, rfl, rfl⟩ := hl
        exact (hne _ _ _ _ rfl).elim
      · exact hr
  | sha1 =>
    simp only [stepRegs, stepSha1]
    split
    · rename_i a b c d e
      simp only [List.forall₂_cons_left_iff, List.forall₂_nil_left_iff] at hr
      obtain ⟨a', _, ha, ⟨b', _, hb, ⟨c', _, hc, ⟨d', _, hd, ⟨e', _, he, rfl, rfl⟩, rfl⟩, rfl⟩, rfl⟩, rfl⟩ := hr
      have hf : R (fSha1 u t b c d) (fSha1 v t b' c' d') := by
        unfold fSha1
        split
        · exact h.ch hb hc hd
        · split
          · exact h.parity hb hc hd
          · split
            · exact h.maj hb hc hd
            · exact h.parity hb hc hd
      exact .cons (h.add (h.add (h.add (h.add (h.rotl _ ha) hf) he) (h.broadcast _)) hx)
        (.cons ha (.cons (h.rotl _ hb) (.cons hc (.cons hd .nil))))
    · split
      · rename_i hne _ _ _ _ _ _
        simp only [List.length_cons, List.length_nil, List.length_eq_succ_iff, List.length_eq_zero_iff] at hl
        obtain ⟨_, _, rfl, _, _, rfl, _, _, rfl, _, _, rfl, _, _, rfl, rfl⟩ := hl
        exact (hne _ _ _ _ _ rfl).elim
      · exact hr
  | sha2x32 => exact stepSha2_rel sha2x32 h t hr hx
  | sha2x64 => exact stepSha2_rel sha2x64 h t hr hx

theorem rounds_rel {f : Family} {u : WordUnit f.width.bits α} {v : WordUnit f.width.bits β}
    {R : α → β → Prop} (h : UnitRel u v R) {ws : List α} {ws' : List β} (hw : List.Forall₂ R ws ws') (t : Nat)
    {r : List α} {r' : List β} (hr : List.Forall₂ R r r') :
    List.Forall₂ R (rounds f u t r ws) (rounds f v t r' ws') := by
  induction hw generalizing t r r' with
  | nil => exact hr
  | cons hx _ ih => exact ih _ (stepRegs_rel h t hr hx)

/-- Related units, states and schedules give related states (R155). -/
theorem compress_rel {f : Family} {u : WordUnit f.width.bits α} {v : WordUnit f.width.bits β}
    {R : α → β → Prop} (h : UnitRel u v R) {ws : List α} {ws' : List β} (hw : List.Forall₂ R ws ws')
    {r : List α} {r' : List β} (hr : List.Forall₂ R r r') :
    List.Forall₂ R (compress f u r ws) (compress f v r' ws') := by
  have zip : ∀ {xs ys : List α} {xs' ys' : List β}, List.Forall₂ R xs xs' → List.Forall₂ R ys ys' →
      List.Forall₂ R (List.zipWith u.add xs ys) (List.zipWith v.add xs' ys') := by
    intro xs ys xs' ys' hx
    induction hx generalizing ys ys' with
    | nil => intro _; exact .nil
    | cons hx _ ih =>
      intro hy
      cases hy with
      | nil => exact .nil
      | cons hy ht => exact .cons (h.add hx hy) (ih ht)
  exact zip hr (rounds_rel h hw 0 hr)

end Sys2Proof
end

