-- ==== Sys2Proof/Laws/Meanings.lean ====
section
/-! SUPPORT. One lemma per meaning: under which conditions on the state it answers a next state and what it leaves,
and what it can do at all. Provers cite these instead of unfolding a meaning. -/

namespace Sys2Proof.Machine

/-! ### Lanes and forms -/

/-- A lane index below K names a lane (R184). -/
theorem laneAt_of_lt {k : LaneCount} {n : Nat} (h : n < k.lanes) : ∃ i : Lane, laneAt k n = some i ∧ i.val = n := by
  have : n < 8 := lt_of_lt_of_le h (by cases k <;> decide)
  exact ⟨⟨n, this⟩, by simp [laneAt, this, h], rfl⟩

/-- A lane index from K on names none (R184). -/
theorem laneAt_of_ge {k : LaneCount} {n : Nat} (h : k.lanes ≤ n) : laneAt k n = none := by
  simp [laneAt]; omega

/-- What a lane index names. -/
theorem laneAt_eq_some {k : LaneCount} {n : Nat} {i : Lane} (h : laneAt k n = some i) : i.val = n ∧ n < k.lanes := by
  simp only [laneAt] at h
  split at h
  · split at h
    · cases h; exact ⟨rfl, by assumption⟩
    · cases h
  · cases h

/-- The lanes of a call are those below K (R20). -/
theorem mem_laneList {k : LaneCount} {i : Lane} : i ∈ k.laneList ↔ i.val < k.lanes := by
  revert i; cases k <;> decide

/-- A call has K lanes. -/
theorem laneList_length {k : LaneCount} : k.laneList.length = k.lanes := by cases k <;> rfl

/-- The forms of the scalar path and of `PREP` and `FINAL` (R76). -/
theorem formOk_scalar {op a k} {i : Lane} (ho : op = .inits ∨ op = .prep ∨ op = .sched ∨ op = .comp ∨ op = .final)
    (hk : k = .k1 ∨ laneCountLegal a k = true) (hi : i.val < k.lanes) : formOk op a k i = true := by
  rcases ho with rfl|rfl|rfl|rfl|rfl <;> rcases hk with rfl|hk <;> simp [formOk, laneCountOk, laneOk, *]

/-- The form of `SNAP` (R76). -/
theorem formOk_snap {a k} {i : Lane} (hk : laneCountLegal a k = true) (hi : i.val < k.lanes) :
    formOk .snap a k i = true := by simp [formOk, laneCountOk, laneOk, *]

/-- The forms of `INITL`, `PACK`, `COMPL` (R76). -/
theorem formOk_lane {op a k} (ho : op = .initl ∨ op = .pack ∨ op = .compl) (hk : laneCountLegal a k = true) :
    formOk op a k 0 = true := by rcases ho with rfl|rfl|rfl <;> simp [formOk, laneCountOk, laneOk, *]

/-! ### The framer -/

/-- What the framer answers keeps the invariants of the stream, and is a whole block (R25, R100). -/
theorem frameBlock_ok {a : Alg} {src i} {c c' : StreamContext} {b} (hc : c.Ok)
    (h : frameBlock a src i c = some (b, c')) :
    c'.Ok ∧ b.length = a.blockBytes ∧ c'.len = c.len ∧ c'.bitLen = c.bitLen ∧ c.cur.toNat ≤ c'.cur.toNat ∧ c.ph.rank ≤ c'.ph.rank := by
  obtain ⟨h1, h2, h3, h4⟩ := hc
  have hB : a.blockBytes < 2^60 ∧ 16 ≤ a.blockBytes ∧ a.lengthRoom ≥ 8 := by cases a <;> decide
  have hlen : c.len.toNat < 2^64 := c.len.isLt
  simp only [maxLen] at h1
  simp only [frameBlock] at h
  generalize hnn : (if c.ph = .active then min a.blockBytes c.remaining else 0) = n at h
  split at h
  · split at h
    · rename_i hg hcase
      obtain ⟨hph, hrem⟩ := hcase
      simp only [frameFull, Option.some.injEq, Prod.mk.injEq] at h
      obtain ⟨rfl, rfl⟩ := h
      simp only [StreamContext.remaining] at hrem
      have hcur : (c.cur + BitVec.ofNat 64 a.blockBytes).toNat = c.cur.toNat + a.blockBytes := by
        simp; omega
      refine ⟨⟨?_, h2, ?_, ?_⟩, ?_, rfl, rfl, ?_, ?_⟩
      · simpa [maxLen] using h1
      · simp only [hcur]; omega
      · intro hh; simp only [hph] at hh; cases hh
      · simp [← hnn, StreamContext.remaining, hph]; omega
      · simp only [hcur]; omega
      · simp
    · split at h
      · rename_i hg hcase' hcase
        obtain ⟨hph, hrem⟩ := hcase
        have hlt : c.remaining < a.blockBytes := by
          by_contra hh; exact hcase' ⟨hph, by omega⟩
        simp only [StreamContext.remaining] at hrem hlt
        have hcur : (c.cur + BitVec.ofNat 64 (c.len.toNat - c.cur.toNat)).toNat = c.len.toNat := by
          simp; omega
        have hcur' : c.cur + BitVec.ofNat 64 (c.len.toNat - c.cur.toNat) = c.len := BitVec.eq_of_toNat_eq hcur
        simp only [frameLast, Option.some.injEq] at h
        have hr : c.remaining = c.len.toNat - c.cur.toNat := rfl
        by_cases hroom : a.lengthRoom ≤ a.blockBytes - c.remaining - 1
        all_goals
          simp only [hroom, if_true, if_false] at h; rw [hr] at h
          simp only [Prod.mk.injEq] at h
          obtain ⟨rfl, rfl⟩ := h
          refine ⟨⟨?_, h2, ?_, ?_⟩, ?_, rfl, rfl, ?_, ?_⟩
          · simpa [maxLen] using h1
          · simp only [hcur]; omega
          · intro; exact hcur'
          · simp [withLengthField, lengthField, ← hnn, hph, StreamContext.remaining]; omega
          · simp only [hcur]; omega
          · simp [hph, StreamPhase.rank]
      · simp only [framePadding, Option.some.injEq, Prod.mk.injEq] at h
        obtain ⟨rfl, rfl⟩ := h
        refine ⟨⟨?_, h2, h3, ?_⟩, ?_, rfl, rfl, le_refl _, ?_⟩
        · simpa [maxLen] using h1
        · intro hh; cases hh
        · simp [withLengthField, lengthField]; omega
        · cases c.ph <;> simp [StreamPhase.rank]
  · cases h

/-- A stream within its bounds is always framed (R50, R209). -/
theorem frameBlock_isSome (a : Alg) (src i) {c : StreamContext} (hc : c.Ok) : ∃ b c', frameBlock a src i c = some (b, c') := by
  obtain ⟨h1, h2, h3, h4⟩ := hc
  simp only [maxLen] at h1
  simp only [frameBlock]
  have : c.cur.toNat + (if c.ph = .active then min a.blockBytes c.remaining else 0) ≤ sourceSpace := by
    simp only [StreamContext.remaining, sourceSpace]
    split <;> omega
  simp only [this, true_or, if_true]
  split
  · exact ⟨_, _, rfl⟩
  · split
    · simp only [frameLast]; split <;> exact ⟨_, _, rfl⟩
    · exact ⟨_, _, rfl⟩

/-- Everything `PREP` can do when it answers a next state (R90). -/
theorem prep_cases {a k i} {s t : State} (h : exec (.ofFields .prep a k i) s = .next t) :
    ∃ c, s.sc[i] = some c ∧ ((c.ph = .done ∧ t = s.raiseInternal .prepAfterDone) ∨
      (c.ph ≠ .done ∧ ∃ b c', frameBlock a s.src i c = some (b, c') ∧ t = { s with
            blk := s.blk.set i (some b)
            sc := s.sc.set i (some c')
            newDone := s.newDone.set i (some (c'.ph == .done)) })) := by
  rw [exec_prep] at h
  simp only [prepareBlock, microOperation_eq_next, withValue_eq_next] at h
  obtain ⟨_, c, hc, h⟩ := h
  refine ⟨c, hc, ?_⟩
  split at h
  · left; refine ⟨by assumption, ?_⟩; cases h; rfl
  · right
    refine ⟨by assumption, ?_⟩
    split at h
    · cases h
    · rename_i b c' hb
      refine ⟨b, c', hb, ?_⟩
      cases h; rfl

/-! ### The other micro-operations -/

/-- An initial vector has `NW` words (R105). -/
theorem iv_length (a : Alg) : a.iv.length = a.stateWords := by cases a <;> rfl

/-- `INITS` always answers (R130). -/
theorem inits_next {a k} {i : Lane} (h : formOk .inits a k i = true) (s : State) :
    exec (.ofFields .inits a k i) s = .next (s.setDigest i (WordArray.ofWords a.width a.iv)) := by
  rw [exec_inits, initScalar, microOperation_of_ok h]

/-- `INITL` always answers (R150). -/
theorem initl_next {a k} (h : laneCountLegal a k = true) (s : State) :
    exec (.ofFields .initl a k 0) s = .next { s with
      ls := some (VectorArray.ofVectors a.width (a.iv.map (vectorUnit a.width.bits k.lanes).broadcast)) } := by
  rw [exec_initl, initLanes, microOperation_of_ok (formOk_lane (by simp) h)]

/-- Reading a shaped element that holds a value. -/
theorem bind_isSome {α β} {o : Option α} {f : α → Option β} (h : (o.bind f).isSome = true) : ∃ x y, o = some x ∧ f x = some y := by
  cases o with
  | none => simp at h
  | some x => simp at h; obtain ⟨y, hy⟩ := Option.isSome_iff_exists.1 h; exact ⟨x, y, rfl, hy⟩

/-- `SCHED` on a block of `B` bytes answers, and `W` then holds `S` words (R131). -/
theorem sched_next {a k} {i : Lane} (h : formOk .sched a k i = true) {s : State} (hb : s.blockReady a i) :
    ∃ x, exec (.ofFields .sched a k i) s = .next { s with w := some x } ∧ (wordsOf a.width a.steps x).isSome = true := by
  rw [exec_sched, buildSchedule, microOperation_of_ok h]
  simp only [State.blockReady, Option.map_eq_some_iff] at hb
  obtain ⟨b, hb, hl⟩ := hb
  refine ⟨WordArray.ofWords a.width (scheduleOf a b), ?_, ?_⟩
  · simp [hb, hl]
  · rw [wordsOf_ofWords_of_length]; simp
    exact expand_length _ _ (by simp)

/-- `COMP` on a state and a schedule of the right shape answers, and `DIG[i]` then holds `NW` words (R136). -/
theorem comp_next {a k} {i : Lane} (h : formOk .comp a k i = true) {s : State} (hd : s.digestReady a i)
    (hw : s.scheduleReady a) :
    ∃ x, exec (.ofFields .comp a k i) s = .next (s.setDigest i x) ∧ (wordsOf a.width a.stateWords x).isSome = true := by
  obtain ⟨x, hx, e, hh⟩ := bind_isSome hd
  obtain ⟨y, wy, ew, hy⟩ := bind_isSome hw
  rw [exec_comp, compressScalar, microOperation_of_ok h]
  have hl := (wordsOf_eq_some.1 hh).2
  refine ⟨WordArray.ofWords a.width (compress a.family (scalarUnit a.width.bits) hx wy), ?_, ?_⟩
  · simp [withDigest, e, hh, ew, hy]
  · rw [wordsOf_ofWords_of_length]; simp
    simp [hl]

/-- `FINAL` on a state of the right shape answers (R195). -/
theorem final_next {a k} {i : Lane} (h : formOk .final a k i = true) {s : State} (hd : s.digestReady a i) :
    ∃ b, exec (.ofFields .final a k i) s = .next { s with out := s.out.set i (some b) } := by
  obtain ⟨x, hx, e, hh⟩ := bind_isSome hd
  rw [exec_final, finalizeDigest, microOperation_of_ok h]
  exact ⟨digestOfState a hx, by simp [withDigest, e, hh]⟩

/-- `SNAP` on a LaneState of the right shape answers, and `DIG[i]` then holds `NW` words (R156). -/
theorem snap_next {a k} {i : Lane} (h : formOk .snap a k i = true) {s : State} (hd : s.laneStateReady a k) :
    ∃ x, exec (.ofFields .snap a k i) s = .next (s.setDigest i x) ∧ (wordsOf a.width a.stateWords x).isSome = true := by
  obtain ⟨x, hx, e, hh⟩ := bind_isSome hd
  rw [exec_snap, snapshotLane, microOperation_of_ok h]
  have hl := (vectorsOf_eq_some.1 hh).2.1
  refine ⟨WordArray.ofWords a.width (column 0 hx i.val), ?_, ?_⟩
  · simp [withLaneState, e, hh]
  · rw [wordsOf_ofWords_of_length]; simp
    simp [column, hl]

/-- Reading blocks that all stand. -/
theorem readBlocks_ok {a : Alg} {s : State} {l : List Lane} (h : ∀ i ∈ l, s.blockReady a i) :
    ∃ bs, readBlocks s l = .ok bs ∧ bs.length = l.length ∧ ∀ b ∈ bs, b.length = a.blockBytes := by
  induction l with
  | nil => exact ⟨[], rfl, rfl, by simp⟩
  | cons i l ih =>
    obtain ⟨bs, h1, h2, h3⟩ := ih (fun j hj => h j (by simp [hj]))
    have hb := h i (by simp)
    simp only [State.blockReady, Option.map_eq_some_iff] at hb
    obtain ⟨b, hb, hl⟩ := hb
    exact ⟨b :: bs, by simp [readBlocks, hb, h1], by simp [h2], by simpa [hl] using h3⟩

/-- A lane schedule has K lanes in every vector (R153). -/
theorem extend_vectorUnit_length {f : Family} {K n : Nat} {ws : List (List (BitVec f.width.bits))} (h : ∀ v ∈ ws, v.length = K) :
    ∀ v ∈ extend f (vectorUnit f.width.bits K) n ws, v.length = K := by
  have := extend_rel (f := f) (u := vectorUnit f.width.bits K) (v := vectorUnit f.width.bits K)
    (R := fun x _ => x.length = K) ⟨by simp_all [vectorUnit], by simp_all [vectorUnit], by simp_all [vectorUnit], by simp_all [vectorUnit],
      by simp_all [vectorUnit], by simp_all [vectorUnit], by simp_all [vectorUnit], by simp_all [vectorUnit], by simp_all [vectorUnit]⟩ n (xs := ws) (ys := ws)
    (by rw [List.forall₂_same]; exact h)
  intro v hv
  rw [List.forall₂_same] at this
  exact this v hv

/-- A lane compression keeps K lanes in every vector (R154). -/
theorem compress_vectorUnit_length {f : Family} {K : Nat} {hs ws : List (List (BitVec f.width.bits))} (h : ∀ v ∈ ws, v.length = K)
    (hh : ∀ v ∈ hs, v.length = K) :
    ∀ v ∈ compress f (vectorUnit f.width.bits K) hs ws, v.length = K := by
  have := compress_rel (f := f) (u := vectorUnit f.width.bits K) (v := vectorUnit f.width.bits K)
    (R := fun x _ => x.length = K) ⟨by simp_all [vectorUnit], by simp_all [vectorUnit], by simp_all [vectorUnit], by simp_all [vectorUnit],
      by simp_all [vectorUnit], by simp_all [vectorUnit], by simp_all [vectorUnit], by simp_all [vectorUnit], by simp_all [vectorUnit]⟩ (ws := ws) (ws' := ws)
    (by rw [List.forall₂_same]; exact h) (r := hs) (r' := hs) (by rw [List.forall₂_same]; exact hh)
  intro v hv
  rw [List.forall₂_same] at this
  exact this v hv

/-- `PACK` on blocks of `B` bytes answers, and `LW` then holds `S` vectors of K words (R151). -/
theorem pack_next {a k} (h : laneCountLegal a k = true) {s : State} (hb : ∀ i : Lane, i.val < k.lanes → s.blockReady a i) :
    ∃ x, exec (.ofFields .pack a k 0) s = .next { s with lw := some x } ∧ (vectorsOf a.width a.steps k.lanes x).isSome = true := by
  rw [exec_pack, packLanes, microOperation_of_ok (formOk_lane (by simp) h)]
  obtain ⟨bs, h1, h2, h3⟩ := readBlocks_ok (l := k.laneList) (fun i hi => hb i (mem_laneList.1 hi))
  refine ⟨VectorArray.ofVectors a.width (expand a.family (vectorUnit a.width.bits k.lanes) (gather a bs)), ?_, ?_⟩
  · simp only [h1]; rw [if_pos h3]
  · rw [vectorsOf_ofVectors]; simp
    · exact expand_length _ _ (by simp [gather])
    · apply extend_vectorUnit_length
      simp [gather, h2, laneList_length]

/-- `COMPL` on a LaneState and a schedule of the right shape answers, and `LS` keeps its shape (R154). -/
theorem compl_next {a k} (h : laneCountLegal a k = true) {s : State} (hl : s.laneStateReady a k) (hw : s.laneScheduleReady a k) :
    ∃ x, exec (.ofFields .compl a k 0) s = .next { s with ls := some x } ∧ (vectorsOf a.width a.stateWords k.lanes x).isSome = true := by
  rw [exec_compl, compressLanes, microOperation_of_ok (formOk_lane (by simp) h)]
  obtain ⟨x, hx, e, hh⟩ := bind_isSome hl
  obtain ⟨y, wy, ew, hy⟩ := bind_isSome hw
  refine ⟨VectorArray.ofVectors a.width (compress a.family (vectorUnit a.width.bits k.lanes) hx wy), ?_, ?_⟩
  · simp [withLaneState, e, hh, ew, hy]
  · rw [vectorsOf_ofVectors]; simp
    · simp [(vectorsOf_eq_some.1 hh).2.1]
    · exact compress_vectorUnit_length (vectorsOf_eq_some.1 hy).2.2 (vectorsOf_eq_some.1 hh).2.2

/-- `PREP` on a stream that is not `Done` answers (R90). -/
theorem prep_next {a k} {i : Lane} (h : formOk .prep a k i = true) {s : State} {c} (hc : s.sc[i] = some c) (ho : c.Ok)
    (hn : c.ph ≠ .done) :
    ∃ b c', c'.Ok ∧ b.length = a.blockBytes ∧ exec (.ofFields .prep a k i) s = .next { s with
            blk := s.blk.set i (some b)
            sc := s.sc.set i (some c')
            newDone := s.newDone.set i (some (c'.ph == .done)) } := by
  obtain ⟨b, c', hb⟩ := frameBlock_isSome a s.src i ho
  obtain ⟨h1, h2, _⟩ := frameBlock_ok ho hb
  refine ⟨b, c', h1, h2, ?_⟩
  rw [exec_prep, prepareBlock, microOperation_of_ok h]
  simp [hc, hn, hb]

/-- The active streams of lanes that have contexts can be counted (R26). -/
theorem activeCount_ok {s : State} {l : List Lane} (h : ∀ i ∈ l, ∃ c, s.sc[i] = some c) : ∃ n, activeCount s l = .ok n := by
  induction l with
  | nil => exact ⟨0, rfl⟩
  | cons i l ih =>
    obtain ⟨n, hn⟩ := ih (fun j hj => h j (by simp [hj]))
    obtain ⟨c, hc⟩ := h i (by simp)
    exact ⟨_, by simp [activeCount, hc, hn]; rfl⟩

/-! ### All micro-operations at once -/

/-- Everything a micro-operation can do to the control, the host side and the streams: an internal error, or nothing but, for `PREP`, its own stream (R51). -/
theorem micro_effect {op a k i} (hop : op.isCommand = false) {s t : State} (h : exec (.ofFields op a k i) s = .next t) :
    (∃ e, t = s.raiseInternal e) ∨
      (t.src = s.src ∧ t.status = s.status ∧ t.seq = s.seq ∧ t.params = s.params ∧ t.srcDesc = s.srcDesc ∧ t.cmd = s.cmd ∧ t.host = s.host ∧
       t.hostData = s.hostData ∧ t.issue = s.issue ∧ t.ctx = s.ctx ∧
        (t.sc = s.sc ∨ ∃ c b c', op = .prep ∧ s.sc[i] = some c ∧ c.ph ≠ .done ∧ frameBlock a s.src i c = some (b, c') ∧ t.sc = s.sc.set i (some c'))) := by
  cases op
  case hash => cases hop
  case hashpar => cases hop
  case inits =>
    rw [exec_inits, initScalar, microOperation_eq_next] at h
    obtain ⟨_, h⟩ := h; cases h; right; simp
  case initl =>
    rw [exec_initl, initLanes, microOperation_eq_next] at h
    obtain ⟨_, h⟩ := h; cases h; right; simp
  case prep =>
    obtain ⟨c, hc, ⟨_, rfl⟩ | ⟨hn, b, c', hb, rfl⟩⟩ := prep_cases h
    · exact .inl ⟨_, rfl⟩
    · right; refine ⟨rfl, rfl, rfl, rfl, rfl, rfl, rfl, rfl, rfl, rfl, .inr ⟨c, b, c', rfl, hc, hn, hb, rfl⟩⟩
  case sched =>
    rw [exec_sched, buildSchedule, microOperation_eq_next, withValue_eq_next] at h
    obtain ⟨_, x, _, h⟩ := h
    split at h <;> cases h
    · right; simp
    · exact .inl ⟨_, rfl⟩
  case comp =>
    rw [exec_comp, compressScalar, microOperation_eq_next, withDigest, withValue_eq_next] at h
    obtain ⟨_, x, _, h⟩ := h
    rw [withValue_eq_next] at h
    obtain ⟨y, _, h⟩ := h
    split at h <;> cases h
    · right; simp
    · exact .inl ⟨_, rfl⟩
  case pack =>
    rw [exec_pack, packLanes, microOperation_eq_next] at h
    obtain ⟨_, h⟩ := h
    split at h
    · cases h
    · split at h <;> cases h
      · right; simp
      · exact .inl ⟨_, rfl⟩
  case compl =>
    rw [exec_compl, compressLanes, microOperation_eq_next, withLaneState, withValue_eq_next] at h
    obtain ⟨_, x, _, h⟩ := h
    rw [withValue_eq_next] at h
    obtain ⟨y, _, h⟩ := h
    split at h <;> cases h
    · right; simp
    · exact .inl ⟨_, rfl⟩
  case snap =>
    rw [exec_snap, snapshotLane, microOperation_eq_next, withLaneState, withValue_eq_next] at h
    obtain ⟨_, x, _, h⟩ := h
    cases h; right; simp
  case final =>
    rw [exec_final, finalizeDigest, microOperation_eq_next, withDigest, withValue_eq_next] at h
    obtain ⟨_, x, _, h⟩ := h
    cases h; right; simp

/-! ### Accept -/

/-- The descriptor check passes only over written descriptors of legal length (R171). -/
theorem checkDescriptors_allFine {s : State} {l : List Lane} (h : checkDescriptors s l = .allFine) : ∀ i ∈ l, ∃ d, s.srcDesc[i] = some d ∧ descTooLong d = false := by
  induction l with
  | nil => simp
  | cons i l ih =>
    simp only [checkDescriptors] at h
    split at h
    · cases h
    · rename_i d hd
      split at h
      · cases h
      · rename_i hl
        intro j hj
        rcases List.mem_cons.1 hj with rfl | hj
        · exact ⟨d, hd, by simpa using hl⟩
        · exact ih h j hj

/-- Constructing one stream (R172). -/
theorem constructStream_eq (i : Lane) (s : State) :
    (s.constructStream i) = { s with
      sc := if s.srcDesc[i] = none then s.sc else s.sc.set i ((s.srcDesc[i]).map newStream)
      newDone := if s.srcDesc[i] = none then s.newDone else s.newDone.set i (some false)
      blk := if s.srcDesc[i] = none then s.blk else s.blk.set i none
      dig := if s.srcDesc[i] = none then s.dig else s.dig.set i none } := by
  unfold State.constructStream
  cases h : s.srcDesc[i] <;> simp

/-- Writing lane `i` where it has a descriptor, and then the lanes of `l`, is writing the lanes of `i :: l`. -/
theorem write_lane_then {α : Type} (sd : PerLane (Option (BitVec 64))) (v : PerLane α) (y : Lane → α) (i j : Lane) (l : List Lane) :
    (if j ∈ l then (if sd[j] = none then (if sd[i] = none then v else v.set i (y i))[j] else y j)
      else (if sd[i] = none then v else v.set i (y i))[j]) =
    if j ∈ i :: l then (if sd[j] = none then v[j] else y j) else v[j] := by
  by_cases hji : j = i
  · subst hji
    cases hd : sd[j] <;> simp
  · have hji' : i.val ≠ j.val := fun h => hji (Fin.ext h.symm)
    cases sd[i] <;> simp [hji, hji']

/-- Constructing the streams of a call writes `SC`, `NEWDONE`, `BLK` and `DIG` of its lanes and nothing else (R13,
R172). -/
theorem constructStreams_effect (l : List Lane) : ∀ s : State,
    constructStreams l s =
      { s with
        sc := (constructStreams l s).sc
        newDone := (constructStreams l s).newDone
        blk := (constructStreams l s).blk
        dig := (constructStreams l s).dig } ∧
    (∀ j : Lane, (constructStreams l s).sc[j] =
      if j ∈ l then (if s.srcDesc[j] = none then s.sc[j] else (s.srcDesc[j]).map newStream) else s.sc[j]) ∧
    (∀ j : Lane, (constructStreams l s).newDone[j] =
      if j ∈ l then (if s.srcDesc[j] = none then s.newDone[j] else some false) else s.newDone[j]) ∧
    (∀ j : Lane, (constructStreams l s).blk[j] =
      if j ∈ l then (if s.srcDesc[j] = none then s.blk[j] else none) else s.blk[j]) ∧
    (∀ j : Lane, (constructStreams l s).dig[j] =
      if j ∈ l then (if s.srcDesc[j] = none then s.dig[j] else none) else s.dig[j]) := by
  induction l with
  | nil => intro s; simp [constructStreams]
  | cons i l ih =>
    intro s
    simp only [constructStreams]
    obtain ⟨h1, h2, h3, h4, h5⟩ := ih (s.constructStream i)
    have e := constructStream_eq i s
    have esd : (s.constructStream i).srcDesc = s.srcDesc := by rw [e]
    refine ⟨by rw [h1, e], fun j => ?_, fun j => ?_, fun j => ?_, fun j => ?_⟩
    · rw [h2, esd, e]; exact write_lane_then s.srcDesc s.sc (fun j => (s.srcDesc[j]).map newStream) i j l
    · rw [h3, esd, e]; exact write_lane_then s.srcDesc s.newDone (fun _ => some false) i j l
    · rw [h4, esd, e]; exact write_lane_then s.srcDesc s.blk (fun _ => none) i j l
    · rw [h5, esd, e]; exact write_lane_then s.srcDesc s.dig (fun _ => none) i j l

/-! ### The sequencer -/

/-- One step of a running command takes its row (R182). -/
theorem coreStep_of_row {s : State} {c r} (ht : s.seq.phase.terminal = false) (hc : s.ctx = some c)
    (hr : seqRow c.k s = .ok r) : coreStep s = takeRow c r s := by
  simp [coreStep, ht, sequencerStep, hc, hr]

/-- A row that issues nothing (R182). -/
theorem takeRow_none {c : CommandContext} {r : SeqRow} (h : r.micro = none) (s : State) :
    takeRow c r s = .next (r.leave c.alg (r.enter s)) := by
  simp [takeRow, SeqRow.word, h]

/-- A row that issues a word which decodes to its own micro-operation (R81). -/
theorem takeRow_some {a : Alg} {k : LaneCount} {r : SeqRow} {op : Op} {i : Lane} (h : r.micro = some (op, i))
    (hd : decode (wordOfFields op a k i) = .ok (Instr.ofFields op a k i)) (hc : op.isCommand = false) (s : State) :
    takeRow ⟨a, k⟩ r s = andThen (exec (.ofFields op a k i) (r.enter s)) fun t => .next (r.leave a t) := by
  simp [takeRow, SeqRow.word, h, issueWord, hd, hc]

end Sys2Proof.Machine
end

