-- ==== Sys2Proof/Laws/PerInstr.lean ====
section
/-! SUPPORT. The lemmas about every instruction, one per constructor (LAWS.json, per_instruction). -/

namespace Sys2Proof

/-- Every field of an encoded word reads back as the code that was put there (30_encoding rule R70). -/
theorem fields_wordOfFields (op : Op) (a : Alg) (k : LaneCount) (i : Lane) :
    zeroField (wordOfFields op a k i) = 0 ∧ opField (wordOfFields op a k i) = op.code ∧
      algField (wordOfFields op a k i) = a.code ∧ kselField (wordOfFields op a k i) = k.code ∧
        laneField (wordOfFields op a k i) = BitVec.ofNat 3 i.val := by
  revert i
  cases op <;> cases a <;> cases k <;> decide

/-- The fields of the instruction's word, read as R70 places them, are the instruction's, and `ZERO` is 0. -/
def Laws.EncodingFits.Statement (i : Instr) : Prop :=
  zeroField (encode i) = 0 ∧ opField (encode i) = i.fields.op.code ∧ algField (encode i) = i.fields.alg.code ∧
    kselField (encode i) = i.fields.k.code ∧ laneField (encode i) = BitVec.ofNat 3 i.fields.lane.val

theorem Laws.EncodingFits.hashMd5 : Laws.EncodingFits.Statement (.hashMd5) := fields_wordOfFields ..
theorem Laws.EncodingFits.hashSha1 : Laws.EncodingFits.Statement (.hashSha1) := fields_wordOfFields ..
theorem Laws.EncodingFits.hashSha224 : Laws.EncodingFits.Statement (.hashSha224) := fields_wordOfFields ..
theorem Laws.EncodingFits.hashSha256 : Laws.EncodingFits.Statement (.hashSha256) := fields_wordOfFields ..
theorem Laws.EncodingFits.hashSha384 : Laws.EncodingFits.Statement (.hashSha384) := fields_wordOfFields ..
theorem Laws.EncodingFits.hashSha512 : Laws.EncodingFits.Statement (.hashSha512) := fields_wordOfFields ..
theorem Laws.EncodingFits.hashparMd5 (k : LaneCount) : Laws.EncodingFits.Statement (.hashparMd5 k) := fields_wordOfFields ..
theorem Laws.EncodingFits.hashparSha1 (k : LaneCount) : Laws.EncodingFits.Statement (.hashparSha1 k) := fields_wordOfFields ..
theorem Laws.EncodingFits.hashparSha224 (k : LaneCount) : Laws.EncodingFits.Statement (.hashparSha224 k) := fields_wordOfFields ..
theorem Laws.EncodingFits.hashparSha256 (k : LaneCount) : Laws.EncodingFits.Statement (.hashparSha256 k) := fields_wordOfFields ..
theorem Laws.EncodingFits.hashparSha384 (k : LaneCount) : Laws.EncodingFits.Statement (.hashparSha384 k) := fields_wordOfFields ..
theorem Laws.EncodingFits.hashparSha512 (k : LaneCount) : Laws.EncodingFits.Statement (.hashparSha512 k) := fields_wordOfFields ..
theorem Laws.EncodingFits.initsMd5 (k : LaneCount) (i : Lane) : Laws.EncodingFits.Statement (.initsMd5 k i) := fields_wordOfFields ..
theorem Laws.EncodingFits.initsSha1 (k : LaneCount) (i : Lane) : Laws.EncodingFits.Statement (.initsSha1 k i) := fields_wordOfFields ..
theorem Laws.EncodingFits.initsSha224 (k : LaneCount) (i : Lane) : Laws.EncodingFits.Statement (.initsSha224 k i) := fields_wordOfFields ..
theorem Laws.EncodingFits.initsSha256 (k : LaneCount) (i : Lane) : Laws.EncodingFits.Statement (.initsSha256 k i) := fields_wordOfFields ..
theorem Laws.EncodingFits.initsSha384 (k : LaneCount) (i : Lane) : Laws.EncodingFits.Statement (.initsSha384 k i) := fields_wordOfFields ..
theorem Laws.EncodingFits.initsSha512 (k : LaneCount) (i : Lane) : Laws.EncodingFits.Statement (.initsSha512 k i) := fields_wordOfFields ..
theorem Laws.EncodingFits.initlMd5 (k : LaneCount) : Laws.EncodingFits.Statement (.initlMd5 k) := fields_wordOfFields ..
theorem Laws.EncodingFits.initlSha1 (k : LaneCount) : Laws.EncodingFits.Statement (.initlSha1 k) := fields_wordOfFields ..
theorem Laws.EncodingFits.initlSha224 (k : LaneCount) : Laws.EncodingFits.Statement (.initlSha224 k) := fields_wordOfFields ..
theorem Laws.EncodingFits.initlSha256 (k : LaneCount) : Laws.EncodingFits.Statement (.initlSha256 k) := fields_wordOfFields ..
theorem Laws.EncodingFits.initlSha384 (k : LaneCount) : Laws.EncodingFits.Statement (.initlSha384 k) := fields_wordOfFields ..
theorem Laws.EncodingFits.initlSha512 (k : LaneCount) : Laws.EncodingFits.Statement (.initlSha512 k) := fields_wordOfFields ..
theorem Laws.EncodingFits.prepMd5 (k : LaneCount) (i : Lane) : Laws.EncodingFits.Statement (.prepMd5 k i) := fields_wordOfFields ..
theorem Laws.EncodingFits.prepSha1 (k : LaneCount) (i : Lane) : Laws.EncodingFits.Statement (.prepSha1 k i) := fields_wordOfFields ..
theorem Laws.EncodingFits.prepSha224 (k : LaneCount) (i : Lane) : Laws.EncodingFits.Statement (.prepSha224 k i) := fields_wordOfFields ..
theorem Laws.EncodingFits.prepSha256 (k : LaneCount) (i : Lane) : Laws.EncodingFits.Statement (.prepSha256 k i) := fields_wordOfFields ..
theorem Laws.EncodingFits.prepSha384 (k : LaneCount) (i : Lane) : Laws.EncodingFits.Statement (.prepSha384 k i) := fields_wordOfFields ..
theorem Laws.EncodingFits.prepSha512 (k : LaneCount) (i : Lane) : Laws.EncodingFits.Statement (.prepSha512 k i) := fields_wordOfFields ..
theorem Laws.EncodingFits.schedMd5 (k : LaneCount) (i : Lane) : Laws.EncodingFits.Statement (.schedMd5 k i) := fields_wordOfFields ..
theorem Laws.EncodingFits.schedSha1 (k : LaneCount) (i : Lane) : Laws.EncodingFits.Statement (.schedSha1 k i) := fields_wordOfFields ..
theorem Laws.EncodingFits.schedSha224 (k : LaneCount) (i : Lane) : Laws.EncodingFits.Statement (.schedSha224 k i) := fields_wordOfFields ..
theorem Laws.EncodingFits.schedSha256 (k : LaneCount) (i : Lane) : Laws.EncodingFits.Statement (.schedSha256 k i) := fields_wordOfFields ..
theorem Laws.EncodingFits.schedSha384 (k : LaneCount) (i : Lane) : Laws.EncodingFits.Statement (.schedSha384 k i) := fields_wordOfFields ..
theorem Laws.EncodingFits.schedSha512 (k : LaneCount) (i : Lane) : Laws.EncodingFits.Statement (.schedSha512 k i) := fields_wordOfFields ..
theorem Laws.EncodingFits.compMd5 (k : LaneCount) (i : Lane) : Laws.EncodingFits.Statement (.compMd5 k i) := fields_wordOfFields ..
theorem Laws.EncodingFits.compSha1 (k : LaneCount) (i : Lane) : Laws.EncodingFits.Statement (.compSha1 k i) := fields_wordOfFields ..
theorem Laws.EncodingFits.compSha224 (k : LaneCount) (i : Lane) : Laws.EncodingFits.Statement (.compSha224 k i) := fields_wordOfFields ..
theorem Laws.EncodingFits.compSha256 (k : LaneCount) (i : Lane) : Laws.EncodingFits.Statement (.compSha256 k i) := fields_wordOfFields ..
theorem Laws.EncodingFits.compSha384 (k : LaneCount) (i : Lane) : Laws.EncodingFits.Statement (.compSha384 k i) := fields_wordOfFields ..
theorem Laws.EncodingFits.compSha512 (k : LaneCount) (i : Lane) : Laws.EncodingFits.Statement (.compSha512 k i) := fields_wordOfFields ..
theorem Laws.EncodingFits.packMd5 (k : LaneCount) : Laws.EncodingFits.Statement (.packMd5 k) := fields_wordOfFields ..
theorem Laws.EncodingFits.packSha1 (k : LaneCount) : Laws.EncodingFits.Statement (.packSha1 k) := fields_wordOfFields ..
theorem Laws.EncodingFits.packSha224 (k : LaneCount) : Laws.EncodingFits.Statement (.packSha224 k) := fields_wordOfFields ..
theorem Laws.EncodingFits.packSha256 (k : LaneCount) : Laws.EncodingFits.Statement (.packSha256 k) := fields_wordOfFields ..
theorem Laws.EncodingFits.packSha384 (k : LaneCount) : Laws.EncodingFits.Statement (.packSha384 k) := fields_wordOfFields ..
theorem Laws.EncodingFits.packSha512 (k : LaneCount) : Laws.EncodingFits.Statement (.packSha512 k) := fields_wordOfFields ..
theorem Laws.EncodingFits.complMd5 (k : LaneCount) : Laws.EncodingFits.Statement (.complMd5 k) := fields_wordOfFields ..
theorem Laws.EncodingFits.complSha1 (k : LaneCount) : Laws.EncodingFits.Statement (.complSha1 k) := fields_wordOfFields ..
theorem Laws.EncodingFits.complSha224 (k : LaneCount) : Laws.EncodingFits.Statement (.complSha224 k) := fields_wordOfFields ..
theorem Laws.EncodingFits.complSha256 (k : LaneCount) : Laws.EncodingFits.Statement (.complSha256 k) := fields_wordOfFields ..
theorem Laws.EncodingFits.complSha384 (k : LaneCount) : Laws.EncodingFits.Statement (.complSha384 k) := fields_wordOfFields ..
theorem Laws.EncodingFits.complSha512 (k : LaneCount) : Laws.EncodingFits.Statement (.complSha512 k) := fields_wordOfFields ..
theorem Laws.EncodingFits.snapMd5 (k : LaneCount) (i : Lane) : Laws.EncodingFits.Statement (.snapMd5 k i) := fields_wordOfFields ..
theorem Laws.EncodingFits.snapSha1 (k : LaneCount) (i : Lane) : Laws.EncodingFits.Statement (.snapSha1 k i) := fields_wordOfFields ..
theorem Laws.EncodingFits.snapSha224 (k : LaneCount) (i : Lane) : Laws.EncodingFits.Statement (.snapSha224 k i) := fields_wordOfFields ..
theorem Laws.EncodingFits.snapSha256 (k : LaneCount) (i : Lane) : Laws.EncodingFits.Statement (.snapSha256 k i) := fields_wordOfFields ..
theorem Laws.EncodingFits.snapSha384 (k : LaneCount) (i : Lane) : Laws.EncodingFits.Statement (.snapSha384 k i) := fields_wordOfFields ..
theorem Laws.EncodingFits.snapSha512 (k : LaneCount) (i : Lane) : Laws.EncodingFits.Statement (.snapSha512 k i) := fields_wordOfFields ..
theorem Laws.EncodingFits.finalMd5 (k : LaneCount) (i : Lane) : Laws.EncodingFits.Statement (.finalMd5 k i) := fields_wordOfFields ..
theorem Laws.EncodingFits.finalSha1 (k : LaneCount) (i : Lane) : Laws.EncodingFits.Statement (.finalSha1 k i) := fields_wordOfFields ..
theorem Laws.EncodingFits.finalSha224 (k : LaneCount) (i : Lane) : Laws.EncodingFits.Statement (.finalSha224 k i) := fields_wordOfFields ..
theorem Laws.EncodingFits.finalSha256 (k : LaneCount) (i : Lane) : Laws.EncodingFits.Statement (.finalSha256 k i) := fields_wordOfFields ..
theorem Laws.EncodingFits.finalSha384 (k : LaneCount) (i : Lane) : Laws.EncodingFits.Statement (.finalSha384 k i) := fields_wordOfFields ..
theorem Laws.EncodingFits.finalSha512 (k : LaneCount) (i : Lane) : Laws.EncodingFits.Statement (.finalSha512 k i) := fields_wordOfFields ..

end Sys2Proof
end

