-- ==== Sys2Proof/Tests/Slice0.lean ====
section
/-! SUPPORT. Tests. Expected values are those of spec/ (95_test_vectors, and the worked rules R103, R145, R161), or
written out by hand from the rule named; each test runs one step on a small state. -/

namespace Sys2Proof.Tests

open Sys2Proof.Machine

set_option maxRecDepth 20000

/-! ### Helpers -/

/-- The next state, if the step has one. -/
def nextOf : Result → Option State
  | .next s => some s
  | .fault _ => none
  | .refused _ => none

/-- `STATUS` after a step. -/
def statusOf (r : Result) : Option Nat := (nextOf r).map fun s => s.status.toNat

/-- The words of an array, as numbers. -/
def wordNats : WordArray → List Nat
  | .w32 ws => ws.map BitVec.toNat
  | .w64 ws => ws.map BitVec.toNat

/-- The vectors of an array, as numbers. -/
def vectorNats : VectorArray → List (List Nat)
  | .w32 vs => vs.map fun v => v.map BitVec.toNat
  | .w64 vs => vs.map fun v => v.map BitVec.toNat

/-- Words `ts` of the schedule a step leaves. -/
def schedule (r : Result) (ts : List Nat) : Option (List Nat) :=
  (nextOf r).bind fun s => s.w.map fun x => ts.map fun t => (wordNats x).getD t 0

/-- `DIG[i]` after a step. -/
def digestWords (r : Result) (i : Lane) : Option (List Nat) := (nextOf r).bind fun s => (s.dig[i]).map wordNats

/-- Vectors `ts` of `LW` after a step. -/
def laneSchedule (r : Result) (ts : List Nat) : Option (List (List Nat)) :=
  (nextOf r).bind fun s => s.lw.map fun x => ts.map fun t => (vectorNats x).getD t []

/-- `LS` after a step. -/
def laneState (r : Result) : Option (List (List Nat)) := (nextOf r).bind fun s => s.ls.map vectorNats

/-- `OUT[i]` after a step. -/
def outBytes (r : Result) (i : Lane) : Option (List Byte) := (nextOf r).bind fun s => s.out[i]

/-- The digest in `OUT[i]` as one number, and its length. -/
def outNat (r : Result) (i : Lane) : Option (Nat × Nat) := (outBytes r i).map fun bs => (beNat bs, bs.length)

/-- Byte `j` of the test message `pat(n, s)` (95_test_vectors). -/
def patByte (s j : Nat) : Byte := BitVec.ofNat 8 ((j + s) % 251)

/-- Bytes `lo .. hi-1` of `pat(n, s)`. -/
def pat (s lo hi : Nat) : List Byte := (List.range (hi - lo)).map fun j => patByte s (lo + j)

/-- `n` zero bytes. -/
def zeros (n : Nat) : List Byte := List.replicate n 0x00

/-- The message "abc". -/
def abc : List Byte := [0x61, 0x62, 0x63]

/-- The block of "abc" (95_test_vectors section 3.2). -/
def abcBlock (a : Alg) : List Byte :=
  match a with
  | .md5 => abc ++ 0x80 :: zeros 52 ++ 0x18 :: zeros 7
  | .sha1 | .sha224 | .sha256 => abc ++ 0x80 :: zeros 59 ++ [0x18]
  | .sha384 | .sha512 => abc ++ 0x80 :: zeros 123 ++ [0x18]

/-- A source of bytes in `SRC[0]`; a zero byte is not listed. -/
def sourceOf (bs : List Byte) : Memory := bs.zipIdx.filterMap fun (b, n) => if b = 0 then none else some (n, b)

/-- A stream of `len` bytes at cursor `cur` in phase `ph`. -/
def streamAt (len cur : Nat) (ph : StreamPhase) : StreamContext :=
  ⟨BitVec.ofNat 64 len, BitVec.ofNat 64 (8 * len), BitVec.ofNat 64 cur, ph⟩

/-- The instance after reset with `SC[0]` and `SRC[0]` given. -/
def framing (bs : List Byte) (cur : Nat) (ph : StreamPhase) : State :=
  { State.reset with src := sourceOf bs, sc := State.reset.sc.set (0 : Lane) (some (streamAt bs.length cur ph)) }

/-- What `PREP 0` leaves: the block, `CUR`, `PH` and `NEWDONE`. -/
structure Framed where
  block : List Byte
  cur : BitVec 64
  ph : StreamPhase
  newDone : Bool
  deriving DecidableEq, Repr

/-- What `PREP 0` has left. -/
def framed (r : Result) : Option Framed :=
  (nextOf r).bind fun s =>
    match s.blk[(0 : Lane)], s.sc[(0 : Lane)], s.newDone[(0 : Lane)] with
    | some b, some c, some n => some ⟨b, c.cur, c.ph, n⟩
    | _, _, _ => none

/-- A state with the given block in `BLK[0]`. -/
def withBlock (b : List Byte) : State := { State.reset with blk := State.reset.blk.set (0 : Lane) (some b) }

/-- A state with the given blocks in `BLK[0]` to `BLK[7]`. -/
def withBlocks (b0 b1 b2 b3 b4 b5 b6 b7 : List Byte) : State :=
  { State.reset with blk := #v[some b0, some b1, some b2, some b3, some b4, some b5, some b6, some b7] }

/-- A state ready for `COMP.a 0`: the given words in `DIG[0]`, the schedule of a block in `W`. -/
def compressing (a : Alg) (h : List (Word a.width)) (b : List Byte) : State :=
  { State.reset with
    dig := State.reset.dig.set (0 : Lane) (some (WordArray.ofWords a.width h))
    w := some (WordArray.ofWords a.width (scheduleOf a b)) }

/-- The state after `INITL; PACK` over the given blocks. -/
def packed (a : Alg) (k : LaneCount) (s : State) : State :=
  match exec (.ofFields .initl a k 0) s with
  | .next t =>
    match exec (.ofFields .pack a k 0) t with
    | .next u => u
    | _ => t
  | _ => s

/-- A state with the given 32-bit words in `DIG[0]`. -/
def holding32 (h : List (BitVec 32)) : State :=
  { State.reset with dig := State.reset.dig.set (0 : Lane) (some (.w32 h)) }

/-- A state with the given 64-bit words in `DIG[0]`. -/
def holding64 (h : List (BitVec 64)) : State :=
  { State.reset with dig := State.reset.dig.set (0 : Lane) (some (.w64 h)) }

/-- A present source of `n` bytes (R39). -/
def present (n : Nat) : BitVec 64 := BitVec.ofNat 64 (2 ^ 63 + n)

/-- The instance with all eight descriptors written alike. -/
def described (d : BitVec 64) : State :=
  { State.reset with srcDesc := #v[some d, some d, some d, some d, some d, some d, some d, some d] }

/-- The same with other parameters. -/
def onInstance (c128 c256 le : Bool) (s : State) : State := { s with params := ⟨c128, c256, le, 1, 2, 2⟩ }

/-- What `STATUS` reads after the host has written a word to `CMD`. -/
def commandStatus (w : BitVec 16) (s : State) : Option Nat := statusOf (writeCommand w s)

/-! ### Well-formed instructions: an ill-formed term for each check (R76, R77) -/

theorem test_wf_hash_has_no_operand : Instr.wf (.hashSha256) = true := by decide
theorem test_wf_hashpar_needs_two_lanes : Instr.wf (.hashparMd5 .k1) = false := by decide
theorem test_wf_hashpar_32_bit_k2 : Instr.wf (.hashparSha256 .k2) = false := by decide
theorem test_wf_hashpar_64_bit_k8 : Instr.wf (.hashparSha512 .k8) = false := by decide
theorem test_wf_initl_k1 : Instr.wf (.initlSha1 .k1) = false := by decide
theorem test_wf_pack_k1 : Instr.wf (.packSha256 .k1) = false := by decide
theorem test_wf_compl_64_bit_k8 : Instr.wf (.complSha384 .k8) = false := by decide
theorem test_wf_snap_k1 : Instr.wf (.snapSha256 .k1 0) = false := by decide
theorem test_wf_snap_lane : Instr.wf (.snapMd5 .k4 4) = false := by decide
theorem test_wf_inits_k2 : Instr.wf (.initsSha1 .k2 0) = false := by decide
theorem test_wf_inits_lane : Instr.wf (.initsSha512 .k2 2) = false := by decide
theorem test_wf_prep_lane : Instr.wf (.prepSha256 .k4 4) = false := by decide
theorem test_wf_prep_scalar_lane : Instr.wf (.prepMd5 .k1 1) = false := by decide
theorem test_wf_sched_lane : Instr.wf (.schedSha384 .k4 7) = false := by decide
theorem test_wf_comp_k8 : Instr.wf (.compSha512 .k8 0) = false := by decide
theorem test_wf_final_lane : Instr.wf (.finalSha224 .k1 7) = false := by decide
theorem test_wf_last_lane : Instr.wf (.snapMd5 .k8 7) = true := by decide

/-! ### Decoding: words written out from R70 to R73 and the table R82; at least one for every constructor -/

theorem test_decode_hash :
    decode 0x0001 = .ok .hashMd5 ∧
    decode 0x0011 = .ok .hashSha1 ∧
    decode 0x0021 = .ok .hashSha224 ∧
    decode 0x0031 = .ok .hashSha256 ∧
    decode 0x0041 = .ok .hashSha384 ∧
    decode 0x0051 = .ok .hashSha512 := by decide

theorem test_decode_hashpar :
    decode 0x0102 = .ok (.hashparMd5 .k4) ∧
    decode 0x0192 = .ok (.hashparSha1 .k8) ∧
    decode 0x0122 = .ok (.hashparSha224 .k4) ∧
    decode 0x01B2 = .ok (.hashparSha256 .k8) ∧
    decode 0x00C2 = .ok (.hashparSha384 .k2) ∧
    decode 0x0152 = .ok (.hashparSha512 .k4) := by decide

theorem test_decode_inits :
    decode 0x0003 = .ok (.initsMd5 .k1 0) ∧
    decode 0x0713 = .ok (.initsSha1 .k4 3) ∧
    decode 0x0BA3 = .ok (.initsSha224 .k8 5) ∧
    decode 0x0033 = .ok (.initsSha256 .k1 0) ∧
    decode 0x02C3 = .ok (.initsSha384 .k2 1) ∧
    decode 0x0553 = .ok (.initsSha512 .k4 2) := by decide

theorem test_decode_initl :
    decode 0x0184 = .ok (.initlMd5 .k8) ∧
    decode 0x0114 = .ok (.initlSha1 .k4) ∧
    decode 0x01A4 = .ok (.initlSha224 .k8) ∧
    decode 0x0134 = .ok (.initlSha256 .k4) ∧
    decode 0x0144 = .ok (.initlSha384 .k4) ∧
    decode 0x00D4 = .ok (.initlSha512 .k2) := by decide

theorem test_decode_prep :
    decode 0x0D85 = .ok (.prepMd5 .k8 6) ∧
    decode 0x0315 = .ok (.prepSha1 .k4 1) ∧
    decode 0x0025 = .ok (.prepSha224 .k1 0) ∧
    decode 0x0735 = .ok (.prepSha256 .k4 3) ∧
    decode 0x0145 = .ok (.prepSha384 .k4 0) ∧
    decode 0x02D5 = .ok (.prepSha512 .k2 1) := by decide

theorem test_decode_sched :
    decode 0x0006 = .ok (.schedMd5 .k1 0) ∧
    decode 0x0F96 = .ok (.schedSha1 .k8 7) ∧
    decode 0x0526 = .ok (.schedSha224 .k4 2) ∧
    decode 0x0736 = .ok (.schedSha256 .k4 3) ∧
    decode 0x00C6 = .ok (.schedSha384 .k2 0) ∧
    decode 0x0756 = .ok (.schedSha512 .k4 3) := by decide

theorem test_decode_comp :
    decode 0x0507 = .ok (.compMd5 .k4 2) ∧
    decode 0x0017 = .ok (.compSha1 .k1 0) ∧
    decode 0x09A7 = .ok (.compSha224 .k8 4) ∧
    decode 0x0037 = .ok (.compSha256 .k1 0) ∧
    decode 0x0347 = .ok (.compSha384 .k4 1) ∧
    decode 0x00D7 = .ok (.compSha512 .k2 0) := by decide

theorem test_decode_pack :
    decode 0x0108 = .ok (.packMd5 .k4) ∧
    decode 0x0198 = .ok (.packSha1 .k8) ∧
    decode 0x01A8 = .ok (.packSha224 .k8) ∧
    decode 0x0138 = .ok (.packSha256 .k4) ∧
    decode 0x00C8 = .ok (.packSha384 .k2) ∧
    decode 0x00D8 = .ok (.packSha512 .k2) := by decide

theorem test_decode_compl :
    decode 0x0189 = .ok (.complMd5 .k8) ∧
    decode 0x0119 = .ok (.complSha1 .k4) ∧
    decode 0x0129 = .ok (.complSha224 .k4) ∧
    decode 0x01B9 = .ok (.complSha256 .k8) ∧
    decode 0x0149 = .ok (.complSha384 .k4) ∧
    decode 0x00D9 = .ok (.complSha512 .k2) := by decide

theorem test_decode_snap :
    decode 0x0F8A = .ok (.snapMd5 .k8 7) ∧
    decode 0x011A = .ok (.snapSha1 .k4 0) ∧
    decode 0x03AA = .ok (.snapSha224 .k8 1) ∧
    decode 0x033A = .ok (.snapSha256 .k4 1) ∧
    decode 0x02CA = .ok (.snapSha384 .k2 1) ∧
    decode 0x075A = .ok (.snapSha512 .k4 3) := by decide

theorem test_decode_final :
    decode 0x000B = .ok (.finalMd5 .k1 0) ∧
    decode 0x079B = .ok (.finalSha1 .k8 3) ∧
    decode 0x072B = .ok (.finalSha224 .k4 3) ∧
    decode 0x013B = .ok (.finalSha256 .k4 0) ∧
    decode 0x054B = .ok (.finalSha384 .k4 2) ∧
    decode 0x02DB = .ok (.finalSha512 .k2 1) := by decide

/-- Illegal words (95_test_vectors section 7 and 5.3), each with the check it breaks. -/
theorem test_decode_illegal :
    decode 0x0000 = .error .reservedOp ∧ decode 0x003C = .error .reservedOp ∧ decode 0xFFFF = .error .zeroField ∧
    decode 0x1031 = .error .zeroField ∧ decode 0x0061 = .error .reservedAlg ∧ decode 0x0071 = .error .reservedAlg ∧
    decode 0x00B2 = .error .laneCount ∧ decode 0x01D2 = .error .laneCount ∧ decode 0x0032 = .error .laneCount ∧
    decode 0x00B1 = .error .laneCount ∧ decode 0x0038 = .error .laneCount ∧
    decode 0x0231 = .error .laneOperand ∧ decode 0x0935 = .error .laneOperand := by decide

/-- Which words the host may write (95_test_vectors section 7). -/
theorem test_host_words :
    Instr.isCommand .hashMd5 = true ∧ Instr.isCommand (.hashparSha512 .k4) = true ∧
    Instr.isCommand (.initsSha256 .k1 0) = false ∧ Instr.isCommand (.packSha512 .k2) = false := by decide

/-- The written form (R83, 95_test_vectors section 7). -/
theorem test_written_form :
    Instr.asm (.snapMd5 .k8 7) = "SNAP.MD5.K8 7" ∧ Instr.asm (.initsSha256 .k1 0) = "INITS.SHA256 0" ∧
    Instr.asm (.hashparSha256 .k8) = "HASHPAR.SHA256.K8" := by decide

/-- The lane count six streams are padded to (R84, 95_test_vectors 5.1), and the split the 64-bit family needs. -/
theorem test_lane_count_of_six :
    hashNLanes .md5 6 = some .k8 ∧ hashNLanes .sha512 6 = none ∧ hashNLanes .sha512 2 = some .k2 ∧
    hashNLanes .sha256 4 = some .k4 ∧ hashNLanes .sha256 9 = none := by decide

/-! ### INITS (95_test_vectors 3.1) -/

theorem test_inits_md5 : digestWords (exec (.initsMd5 .k1 0) State.reset) 0 =
    some [0x67452301, 0xEFCDAB89, 0x98BADCFE, 0x10325476] := by decide
theorem test_inits_sha1 : digestWords (exec (.initsSha1 .k4 3) State.reset) 3 =
    some [0x67452301, 0xEFCDAB89, 0x98BADCFE, 0x10325476, 0xC3D2E1F0] := by decide
theorem test_inits_sha224 : digestWords (exec (.initsSha224 .k4 3) State.reset) 3 =
    some [0xC1059ED8, 0x367CD507, 0x3070DD17, 0xF70E5939, 0xFFC00B31, 0x68581511, 0x64F98FA7, 0xBEFA4FA4] := by decide
theorem test_inits_sha256 : digestWords (exec (.initsSha256 .k1 0) State.reset) 0 =
    some [0x6A09E667, 0xBB67AE85, 0x3C6EF372, 0xA54FF53A, 0x510E527F, 0x9B05688C, 0x1F83D9AB, 0x5BE0CD19] := by decide
theorem test_inits_sha384 : digestWords (exec (.initsSha384 .k4 3) State.reset) 3 =
    some [0xCBBB9D5DC1059ED8, 0x629A292A367CD507, 0x9159015A3070DD17, 0x152FECD8F70E5939,
      0x67332667FFC00B31, 0x8EB44A8768581511, 0xDB0C2E0D64F98FA7, 0x47B5481DBEFA4FA4] := by decide
theorem test_inits_sha512 : digestWords (exec (.initsSha512 .k4 3) State.reset) 3 =
    some [0x6A09E667F3BCC908, 0xBB67AE8584CAA73B, 0x3C6EF372FE94F82B, 0xA54FF53A5F1D36F1,
      0x510E527FADE682D1, 0x9B05688C2B3E6C1F, 0x1F83D9ABFB41BD6B, 0x5BE0CD19137E2179] := by decide

/-! ### INITL: each vector one word of the initial vector in every lane (R150, 95_test_vectors 4.1) -/

theorem test_initl_md5 :
    (laneState (exec (.initlMd5 .k8) State.reset)).map (fun vs => (vs.length, vs.getD 0 [], vs.getD 3 [])) =
    some (4, List.replicate 8 0x67452301, List.replicate 8 0x10325476) := by decide
theorem test_initl_sha1 :
    (laneState (exec (.initlSha1 .k4) State.reset)).map (fun vs => (vs.length, vs.getD 0 [], vs.getD 4 [])) =
    some (5, List.replicate 4 0x67452301, List.replicate 4 0xC3D2E1F0) := by decide
theorem test_initl_sha224 :
    (laneState (exec (.initlSha224 .k8) State.reset)).map (fun vs => (vs.length, vs.getD 0 [], vs.getD 7 [])) =
    some (8, List.replicate 8 0xC1059ED8, List.replicate 8 0xBEFA4FA4) := by decide
theorem test_initl_sha256 :
    (laneState (exec (.initlSha256 .k4) State.reset)).map (fun vs => (vs.length, vs.getD 0 [], vs.getD 7 [])) =
    some (8, List.replicate 4 0x6A09E667, List.replicate 4 0x5BE0CD19) := by decide
theorem test_initl_sha384 :
    (laneState (exec (.initlSha384 .k4) State.reset)).map (fun vs => (vs.length, vs.getD 0 [], vs.getD 7 [])) =
    some (8, List.replicate 4 0xCBBB9D5DC1059ED8, List.replicate 4 0x47B5481DBEFA4FA4) := by decide
theorem test_initl_sha512 :
    (laneState (exec (.initlSha512 .k2) State.reset)).map (fun vs => (vs.length, vs.getD 0 [], vs.getD 7 [])) =
    some (8, List.replicate 2 0x6A09E667F3BCC908, List.replicate 2 0x5BE0CD19137E2179) := by decide

/-! ### PREP (95_test_vectors section 2, R103) -/

/-- A stream that is `Done` raises `CONTRACT(PrepAfterDone)`: 0x006F = 3 + 4 * 3 + 32 * 3 (R96, R201). -/
theorem test_prep_after_done : statusOf (exec (.prepSha256 .k1 0) (framing abc 3 .done)) = some 0x006F := by decide

/-- `PREP.SHA256` and `PREP.SHA224` on "abc", `pat(56)` (both calls) and `pat(64)`. -/
theorem test_prep_sha2x32 :
    framed (exec (.prepSha256 .k1 0) (framing (abc) 0 .active)) =
    some ⟨abc ++ 0x80 :: zeros 59 ++ [0x18], 3, .done, true⟩ ∧
    framed (exec (.prepSha256 .k1 0) (framing (pat 0 0 56) 0 .active)) =
    some ⟨pat 0 0 56 ++ 0x80 :: zeros 7, 56, .markerWritten, false⟩ ∧
    framed (exec (.prepSha224 .k1 0) (framing (pat 0 0 56) 56 .markerWritten)) =
    some ⟨zeros 56 ++ zeros 6 ++ [0x01, 0xC0], 56, .done, true⟩ ∧
    framed (exec (.prepSha224 .k1 0) (framing (pat 0 0 64) 0 .active)) =
    some ⟨pat 0 0 64, 64, .active, false⟩ := by
  decide +kernel

/-- `PREP.SHA1` on `pat(64)` (second call) and `pat(55)`; `PREP.MD5` on "abc" and `pat(63)`. -/
theorem test_prep_sha1_md5 :
    framed (exec (.prepSha1 .k1 0) (framing (pat 0 0 64) 64 .active)) =
    some ⟨0x80 :: zeros 55 ++ zeros 6 ++ [0x02, 0x00], 64, .done, true⟩ ∧
    framed (exec (.prepSha1 .k1 0) (framing (pat 0 0 55) 0 .active)) =
    some ⟨pat 0 0 55 ++ 0x80 :: zeros 6 ++ [0x01, 0xB8], 55, .done, true⟩ ∧
    framed (exec (.prepMd5 .k1 0) (framing (abc) 0 .active)) =
    some ⟨abc ++ 0x80 :: zeros 52 ++ 0x18 :: zeros 7, 3, .done, true⟩ ∧
    framed (exec (.prepMd5 .k1 0) (framing (pat 0 0 63) 0 .active)) =
    some ⟨pat 0 0 63 ++ [0x80], 63, .markerWritten, false⟩ := by
  decide +kernel

/-- `PREP.SHA512` on `pat(111)` and `pat(112)`; `PREP.SHA384` on `pat(129)` (second call) and the empty message. -/
theorem test_prep_sha2x64 :
    framed (exec (.prepSha512 .k1 0) (framing (pat 0 0 111) 0 .active)) =
    some ⟨pat 0 0 111 ++ 0x80 :: zeros 14 ++ [0x03, 0x78], 111, .done, true⟩ ∧
    framed (exec (.prepSha512 .k1 0) (framing (pat 0 0 112) 0 .active)) =
    some ⟨pat 0 0 112 ++ 0x80 :: zeros 15, 112, .markerWritten, false⟩ ∧
    framed (exec (.prepSha384 .k1 0) (framing (pat 0 0 129) 128 .active)) =
    some ⟨0x80 :: 0x80 :: zeros 118 ++ zeros 6 ++ [0x04, 0x08], 129, .done, true⟩ ∧
    framed (exec (.prepSha384 .k1 0) (framing ([]) 0 .active)) =
    some ⟨0x80 :: zeros 127, 0, .done, true⟩ := by
  decide +kernel

/-! ### SCHED (95_test_vectors 3.2, 3.3, 3.4) -/

/-- Little-endian words and the permutation; big-endian words and the recurrence, wrapping. -/
theorem test_sched_md5_sha1 :
    schedule (exec (.schedMd5 .k1 0) (withBlock (abcBlock .md5))) [0, 14, 15, 16, 17, 18, 19, 63] =
    some [0x80636261, 0x00000018, 0x00000000, 0x00000000, 0x00000000, 0x00000000, 0x80636261, 0x00000000] ∧
    schedule (exec (.schedMd5 .k1 0) (withBlock (pat 0 0 64))) [16, 17, 31, 32, 33, 47, 48, 49, 63] =
    some [0x07060504, 0x1B1A1918, 0x33323130, 0x17161514, 0x23222120, 0x0B0A0908, 0x03020100, 0x1F1E1D1C, 0x27262524] ∧
    schedule (exec (.schedSha1 .k1 0) (withBlock (abcBlock .sha1))) [0, 1, 15, 16, 17, 18, 19, 79] =
    some [0x61626380, 0x00000000, 0x00000018, 0xC2C4C700, 0x00000000, 0x00000030, 0x85898E01, 0x822E0879] ∧
    schedule (exec (.schedSha1 .k1 0) (withBlock (List.replicate 64 0xFF))) [15, 16, 79] =
    some [0xFFFFFFFF, 0x00000000, 0xFFFFFFFF] := by
  decide +kernel

/-- The SHA-2 recurrences, on "abc", `pat(64)` and all ones. -/
theorem test_sched_sha2 :
    schedule (exec (.schedSha224 .k1 0) (withBlock (abcBlock .sha224))) [0, 15, 16, 17, 18, 19, 63] =
    some [0x61626380, 0x00000018, 0x61626380, 0x000F0000, 0x7DA86405, 0x600003C6, 0x12B1EDEB] ∧
    schedule (exec (.schedSha256 .k1 0) (withBlock (pat 0 0 64))) [0, 15, 16, 63] =
    some [0x00010203, 0x3C3D3E3F, 0x2D84894C, 0x24A97715] ∧
    schedule (exec (.schedSha256 .k1 0) (withBlock (List.replicate 64 0xFF))) [16, 63] =
    some [0x203FFFFC, 0x4BCEAF09] ∧
    schedule (exec (.schedSha384 .k1 0) (withBlock (abcBlock .sha384))) [0, 15, 16, 17, 18, 19, 79] =
    some [0x6162638000000000, 0x0000000000000018, 0x6162638000000000, 0x00030000000000C0,
      0x0A9699A24C700003, 0x00000C0060000603, 0x92AEEED1A7BCF7D2] ∧
    schedule (exec (.schedSha512 .k1 0) (withBlock (List.replicate 128 0xFF))) [16, 79] =
    some [0x05FFFFFFFFFFFFFC, 0x838168CE14E43C5A] := by
  decide +kernel

/-! ### COMP (R145, 95_test_vectors 3.2 to 3.4) -/

/-- From the initial vector, the block of "abc". -/
theorem test_comp_abc_md5_sha1 :
    digestWords (exec (.compMd5 .k1 0) (compressing .md5 (Alg.iv .md5) (abcBlock .md5))) 0 =
    some [0x98500190, 0xB04FD23C, 0x7D3F96D6, 0x727FE128] ∧
    digestWords (exec (.compSha1 .k1 0) (compressing .sha1 (Alg.iv .sha1) (abcBlock .sha1))) 0 =
    some [0xA9993E36, 0x4706816A, 0xBA3E2571, 0x7850C26C, 0x9CD0D89D] := by
  decide +kernel

/-- From the initial vector, the block of "abc". -/
theorem test_comp_abc_sha2x32 :
    digestWords (exec (.compSha224 .k1 0) (compressing .sha224 (Alg.iv .sha224) (abcBlock .sha224))) 0 =
    some [0x23097D22, 0x3405D822, 0x8642A477, 0xBDA255B3, 0x2AADBCE4, 0xBDA0B3F7, 0xE36C9DA7, 0xD2DA082D] ∧
    digestWords (exec (.compSha256 .k1 0) (compressing .sha256 (Alg.iv .sha256) (abcBlock .sha256))) 0 =
    some [0xBA7816BF, 0x8F01CFEA, 0x414140DE, 0x5DAE2223, 0xB00361A3, 0x96177A9C, 0xB410FF61, 0xF20015AD] := by
  decide +kernel

/-- From the initial vector, the block of "abc". -/
theorem test_comp_abc_sha2x64 :
    digestWords (exec (.compSha384 .k1 0) (compressing .sha384 (Alg.iv .sha384) (abcBlock .sha384))) 0 =
    some [0xCB00753F45A35E8B, 0xB5A03D699AC65007, 0x272C32AB0EDED163, 0x1A8B605A43FF5BED,
      0x8086072BA1E7CC23, 0x58BAECA134C825A7, 0xA303EDFDF3B89CD7, 0x0C66918ECE57BA15] ∧
    digestWords (exec (.compSha512 .k1 0) (compressing .sha512 (Alg.iv .sha512) (abcBlock .sha512))) 0 =
    some [0xDDAF35A193617ABA, 0xCC417349AE204131, 0x12E6FA4E89A97EA2, 0x0A9EEEE64B55D39A,
      0x2192992A274FC1A8, 0x36BA3C23A3FEEBBD, 0x454D4423643CE80E, 0x2A9AC94FA54CA49F] := by
  decide +kernel

/-- From all ones, a block of 0xFF: every addition wraps (R8). -/
theorem test_comp_wraps :
    digestWords (exec (.compMd5 .k1 0) (compressing .md5 (List.replicate 4 (BitVec.allOnes 32))
      (List.replicate 64 0xFF))) 0 =
    some [0x6CBA9129, 0x29FFD12A, 0x8B9BB7D3, 0xA9A0A3C1] ∧
    digestWords (exec (.compSha1 .k1 0) (compressing .sha1 (List.replicate 5 (BitVec.allOnes 32))
      (List.replicate 64 0xFF))) 0 =
    some [0x3F48159B, 0x2DCE51FA, 0x8A1E930A, 0x02083B68, 0xEF70D6E8] ∧
    digestWords (exec (.compSha256 .k1 0) (compressing .sha256 (List.replicate 8 (BitVec.allOnes 32))
      (List.replicate 64 0xFF))) 0 =
    some [0x0598127A, 0xAF11706E, 0x77401FFF, 0xD730C549, 0x0B84C867, 0xA98C6CA3, 0xD7F3C0F9, 0x06A78B79] ∧
    digestWords (exec (.compSha512 .k1 0) (compressing .sha512 (List.replicate 8 (BitVec.allOnes 64))
      (List.replicate 128 0xFF))) 0 =
    some [0x9B0F121696E951EE, 0x41D0B467B741E768, 0x564F41EBB3B72884, 0xF805B40FCACB5BC1,
      0x3C379CFFCF02A900, 0x9B17A37F809AC554, 0x79C9FD2E1C83B6AB, 0xE948D9E252C02C7A] := by
  decide +kernel

/-! ### FINAL (95_test_vectors section 8) -/

/-- The empty message: published digests the source names (95_test_vectors 1.1), of `digest`. -/
theorem test_digest_empty :
    beNat (digest .md5 []) = 0xd41d8cd98f00b204e9800998ecf8427e ∧
    beNat (digest .sha1 []) = 0xda39a3ee5e6b4b0d3255bfef95601890afd80709 ∧
    beNat (digest .sha256 []) = 0xe3b0c44298fc1c149afbf4c8996fb92427ae41e4649b934ca495991b7852b855 ∧
    beNat (digest .sha512 []) =
    0xcf83e1357eefb8bdf1542850d66d8007d620e4050b5715dc83f4a921d36ce9ce47d0d13c5d85f2b0ff8318d2877eec2f63b931bd47417a81a538327af927da3e := by
  decide +kernel

/-- The states of "abc". -/
theorem test_final_words :
    outNat (exec (.finalMd5 .k1 0) (holding32
      [0x98500190, 0xB04FD23C, 0x7D3F96D6, 0x727FE128])) 0 =
    some (0x900150983cd24fb0d6963f7d28e17f72, 16) ∧
    outNat (exec (.finalSha1 .k1 0) (holding32
      [0xA9993E36, 0x4706816A, 0xBA3E2571, 0x7850C26C, 0x9CD0D89D])) 0 =
    some (0xa9993e364706816aba3e25717850c26c9cd0d89d, 20) ∧
    outNat (exec (.finalSha224 .k1 0) (holding32
      [0x23097D22, 0x3405D822, 0x8642A477, 0xBDA255B3, 0x2AADBCE4, 0xBDA0B3F7, 0xE36C9DA7, 0xD2DA082D])) 0 =
    some (0x23097d223405d8228642a477bda255b32aadbce4bda0b3f7e36c9da7, 28) ∧
    outNat (exec (.finalSha256 .k1 0) (holding32
      [0xBA7816BF, 0x8F01CFEA, 0x414140DE, 0x5DAE2223, 0xB00361A3, 0x96177A9C, 0xB410FF61, 0xF20015AD])) 0 =
    some (0xba7816bf8f01cfea414140de5dae2223b00361a396177a9cb410ff61f20015ad, 32) ∧
    outNat (exec (.finalSha384 .k1 0) (holding64
      [0xCB00753F45A35E8B, 0xB5A03D699AC65007, 0x272C32AB0EDED163, 0x1A8B605A43FF5BED,
      0x8086072BA1E7CC23, 0x58BAECA134C825A7, 0xA303EDFDF3B89CD7, 0x0C66918ECE57BA15])) 0 =
    some (0xcb00753f45a35e8bb5a03d699ac65007272c32ab0eded1631a8b605a43ff5bed8086072ba1e7cc2358baeca134c825a7, 48) ∧
    outNat (exec (.finalSha512 .k1 0) (holding64
      [0xDDAF35A193617ABA, 0xCC417349AE204131, 0x12E6FA4E89A97EA2, 0x0A9EEEE64B55D39A,
      0x2192992A274FC1A8, 0x36BA3C23A3FEEBBD, 0x454D4423643CE80E, 0x2A9AC94FA54CA49F])) 0 =
    some (0xddaf35a193617abacc417349ae20413112e6fa4e89a97ea20a9eeee64b55d39a2192992a274fc1a836ba3c23a3feebbd454d4423643ce80e2a9ac94fa54ca49f, 64) := by
  decide +kernel

/-- The byte order: MD5 least significant byte first, SHA most significant first. -/
theorem test_final_bytes :
    outBytes (exec (.finalMd5 .k1 0) (holding32 [0x00010203, 0x04050607, 0x08090A0B, 0x0C0D0E0F])) 0 =
    some [0x03, 0x02, 0x01, 0x00, 0x07, 0x06, 0x05, 0x04, 0x0B, 0x0A, 0x09, 0x08, 0x0F, 0x0E, 0x0D, 0x0C] ∧
    (outBytes (exec (.finalSha384 .k1 0) (holding64 [0x0001020304050607, 0x08090A0B0C0D0E0F, 0, 0, 0, 0, 0, 0])) 0).map
      (List.take 16) =
    some [0x00, 0x01, 0x02, 0x03, 0x04, 0x05, 0x06, 0x07, 0x08, 0x09, 0x0A, 0x0B, 0x0C, 0x0D, 0x0E, 0x0F] := by
  decide +kernel

/-! ### PACK (R161, 95_test_vectors 4.1 to 4.3, 3.2) -/

/-- The four blocks of 95_test_vectors 4.1. -/
def blocks41 : State :=
  withBlocks (abcBlock .sha256) (0x80 :: zeros 63) (pat 0 0 56 ++ 0x80 :: zeros 7) (pat 0 0 64) [] [] [] []

/-- The two blocks of 95_test_vectors 4.2. -/
def blocks42 : State := withBlocks (abcBlock .sha512) (pat 0 0 128) [] [] [] [] [] []

/-- The eight blocks of 95_test_vectors 4.3. -/
def blocks43 : State :=
  withBlocks (0x80 :: zeros 63) (0x01 :: 0x80 :: zeros 54 ++ 0x08 :: zeros 7) (pat 2 0 63 ++ [0x80]) (pat 3 0 64)
    (pat 4 0 64) (pat 5 0 64) (0x80 :: zeros 63) (0x80 :: zeros 63)

/-- "abc" in every lane. -/
def blocksAbc (a : Alg) : State :=
  let b := abcBlock a
  withBlocks b b b b b b b b

/-- The gather and the lane-wise recurrence on 32-bit words. -/
theorem test_pack_32_bit :
    laneSchedule (exec (.packSha256 .k4) blocks41) [0, 1, 15, 16, 17, 63] =
    some [[0x61626380, 0x80000000, 0x00010203, 0x00010203],
      [0x00000000, 0x00000000, 0x04050607, 0x04050607],
      [0x00000018, 0x00000000, 0x00000000, 0x3C3D3E3F],
      [0x61626380, 0x80000000, 0x734FE3F7, 0x2D84894C],
      [0x000F0000, 0x00000000, 0x81C22189, 0xBA99985F],
      [0x12B1EDEB, 0x3B5EC49B, 0x4D85EC87, 0x24A97715]] ∧
    laneSchedule (exec (.packSha224 .k4) blocks41) [0, 16, 63] =
    some [[0x61626380, 0x80000000, 0x00010203, 0x00010203],
      [0x61626380, 0x80000000, 0x734FE3F7, 0x2D84894C],
      [0x12B1EDEB, 0x3B5EC49B, 0x4D85EC87, 0x24A97715]] ∧
    laneSchedule (exec (.packMd5 .k8) blocks43) [0, 16, 14] =
    some [[0x00000080, 0x00008001, 0x05040302, 0x06050403, 0x07060504, 0x08070605, 0x00000080, 0x00000080],
      [0x00000000, 0x00000000, 0x09080706, 0x0A090807, 0x0B0A0908, 0x0C0B0A09, 0x00000000, 0x00000000],
      [0x00000000, 0x00000008, 0x3D3C3B3A, 0x3E3D3C3B, 0x3F3E3D3C, 0x403F3E3D, 0x00000000, 0x00000000]] ∧
    laneSchedule (exec (.packSha1 .k4) (blocksAbc .sha1)) [0, 16, 19, 79] =
    some [[0x61626380, 0x61626380, 0x61626380, 0x61626380],
      [0xC2C4C700, 0xC2C4C700, 0xC2C4C700, 0xC2C4C700],
      [0x85898E01, 0x85898E01, 0x85898E01, 0x85898E01],
      [0x822E0879, 0x822E0879, 0x822E0879, 0x822E0879]] := by
  decide +kernel

/-- The same on 64-bit words. -/
theorem test_pack_64_bit :
    laneSchedule (exec (.packSha512 .k2) blocks42) [0, 15, 16, 79] =
    some [[0x6162638000000000, 0x0001020304050607],
      [0x0000000000000018, 0x78797A7B7C7D7E7F],
      [0x6162638000000000, 0xFFEBA2C62B98ED57],
      [0x92AEEED1A7BCF7D2, 0x984146FAADC9E6E7]] ∧
    laneSchedule (exec (.packSha384 .k2) blocks42) [16, 79] =
    some [[0x6162638000000000, 0xFFEBA2C62B98ED57],
      [0x92AEEED1A7BCF7D2, 0x984146FAADC9E6E7]] := by
  decide +kernel

/-! ### COMPL (R161, 95_test_vectors 4.1 to 4.3, R145) -/

/-- The three calls of 95_test_vectors 4. -/
theorem test_compl_vectors :
    (laneState (exec (.complSha256 .k4) (packed .sha256 .k4 blocks41))).map (id) =
    some [[0xBA7816BF, 0xE3B0C442, 0x42122E86, 0xFC99A2DF],
      [0x8F01CFEA, 0x98FC1C14, 0xEB2CCB04, 0x88F42A7A],
      [0x414140DE, 0x9AFBF4C8, 0x1A3A2E8D, 0x7BB9D180],
      [0x5DAE2223, 0x996FB924, 0x7BE3B601, 0x33CDC6A2],
      [0xB00361A3, 0x27AE41E4, 0xFE5C625F, 0x0256755F],
      [0x96177A9C, 0x649B934C, 0xE9A795C0, 0x9D5B9A50],
      [0xB410FF61, 0xA495991B, 0x140A9207, 0x44A9CC31],
      [0xF20015AD, 0x7852B855, 0x6B2460DD, 0x5ABE84A7]] ∧
    (laneState (exec (.complSha512 .k2) (packed .sha512 .k2 blocks42))).map (fun vs => [vs.getD 0 [], vs.getD 7 []]) =
    some [[0xDDAF35A193617ABA, 0x8E03953CD57CD687],
      [0x2A9AC94FA54CA49F, 0x47099D491A30B151]] ∧
    (laneState (exec (.complMd5 .k8) (packed .md5 .k8 blocks43))).map (fun vs => vs.getD 0 []) =
    some [0xD98C1DD4, 0x0840A555, 0x3E5181FC, 0xF909BEAC, 0x9F398906, 0x783AE4A5, 0xD98C1DD4, 0xD98C1DD4] := by
  decide +kernel

/-- The last lane of a call with "abc" in every lane: the `DIG[0]` of R145. -/
theorem test_compl_abc :
    (laneState (exec (.complSha1 .k4) (packed .sha1 .k4 (blocksAbc .sha1)))).map (fun vs => vs.map fun v => v.getD 3 0) =
    some [0xA9993E36, 0x4706816A, 0xBA3E2571, 0x7850C26C, 0x9CD0D89D] ∧
    (laneState (exec (.complSha224 .k4) (packed .sha224 .k4 (blocksAbc .sha224)))).map (fun vs => vs.map fun v => v.getD 3 0) =
    some [0x23097D22, 0x3405D822, 0x8642A477, 0xBDA255B3, 0x2AADBCE4, 0xBDA0B3F7, 0xE36C9DA7, 0xD2DA082D] ∧
    (laneState (exec (.complSha384 .k2) (packed .sha384 .k2 (blocksAbc .sha384)))).map (fun vs => vs.map fun v => v.getD 1 0) =
    some [0xCB00753F45A35E8B, 0xB5A03D699AC65007, 0x272C32AB0EDED163, 0x1A8B605A43FF5BED,
      0x8086072BA1E7CC23, 0x58BAECA134C825A7, 0xA303EDFDF3B89CD7, 0x0C66918ECE57BA15] := by
  decide +kernel

/-! ### SNAP: column `i` of `LS` (R156, 95_test_vectors 4.1, 4.2) -/

/-- `LS` after the `COMPL` of 95_test_vectors 4.1. -/
def lanes41 : State :=
  { State.reset with ls := some (.w32 [[0xBA7816BF, 0xE3B0C442, 0x42122E86, 0xFC99A2DF],
    [0x8F01CFEA, 0x98FC1C14, 0xEB2CCB04, 0x88F42A7A],
    [0x414140DE, 0x9AFBF4C8, 0x1A3A2E8D, 0x7BB9D180],
    [0x5DAE2223, 0x996FB924, 0x7BE3B601, 0x33CDC6A2],
    [0xB00361A3, 0x27AE41E4, 0xFE5C625F, 0x0256755F],
    [0x96177A9C, 0x649B934C, 0xE9A795C0, 0x9D5B9A50],
    [0xB410FF61, 0xA495991B, 0x140A9207, 0x44A9CC31],
    [0xF20015AD, 0x7852B855, 0x6B2460DD, 0x5ABE84A7]]) }

/-- Eight vectors of two 64-bit lanes, lane 1 of vector `n` holding `0x10 + n`. -/
def lanes64 : State :=
  { State.reset with ls := some (.w64 ((List.range 8).map fun n => [BitVec.ofNat 64 n, BitVec.ofNat 64 (0x10 + n)])) }

/-- `nw` vectors of eight 32-bit lanes, lane `j` of vector `n` holding `0x100 * j + n`. -/
def lanes32 (nw : Nat) : State :=
  { State.reset with
    ls := some (.w32 ((List.range nw).map fun n => (List.range 8).map fun j => BitVec.ofNat 32 (0x100 * j + n))) }

theorem test_snap_sha256 : digestWords (exec (.snapSha256 .k4 1) lanes41) 1 =
    some [0xE3B0C442, 0x98FC1C14, 0x9AFBF4C8, 0x996FB924, 0x27AE41E4, 0x649B934C, 0xA495991B, 0x7852B855] := by
  decide
theorem test_snap_sha224 : digestWords (exec (.snapSha224 .k4 3) lanes41) 3 =
    some [0xFC99A2DF, 0x88F42A7A, 0x7BB9D180, 0x33CDC6A2, 0x0256755F, 0x9D5B9A50, 0x44A9CC31, 0x5ABE84A7] := by
  decide
theorem test_snap_sha384 : digestWords (exec (.snapSha384 .k2 1) lanes64) 1 =
    some [0x10, 0x11, 0x12, 0x13, 0x14, 0x15, 0x16, 0x17] := by decide
theorem test_snap_sha512 : digestWords (exec (.snapSha512 .k2 0) lanes64) 0 = some [0, 1, 2, 3, 4, 5, 6, 7] := by decide
theorem test_snap_md5 : digestWords (exec (.snapMd5 .k8 7) (lanes32 4)) 7 = some [0x700, 0x701, 0x702, 0x703] := by
  decide
theorem test_snap_sha1 : digestWords (exec (.snapSha1 .k8 0) (lanes32 5)) 0 = some [0, 1, 2, 3, 4] := by decide

/-! ### HASH and HASHPAR: accept and its errors (95_test_vectors 5.3) -/

/-- Described streams, with something of an earlier call in every buffer. -/
def lanesOfEarlierCall : State :=
  { described (present 3) with
    blk := Vector.replicate 8 (some [0x61])
    w := some (.w32 [1])
    lw := some (.w32 [[1]])
    ls := some (.w32 [[1]])
    dig := Vector.replicate 8 (some (.w32 [1])) }

/-- An accepted command is running, in its first phase, with its context latched. -/
structure Accepted where
  status : Nat
  phase : SeqPhase
  alg : Alg
  k : LaneCount
  deriving DecidableEq, Repr

/-- What accept has left. -/
def accepted (r : Result) : Option Accepted :=
  (nextOf r).bind fun s => s.ctx.map fun c => ⟨s.status.toNat, s.seq.phase, c.alg, c.k⟩

/-- `STATUS` after a write of `CMD`: the rows of 95_test_vectors 5.3 that fail, and three near ones that do not. -/
theorem test_command_errors :
    commandStatus 0x0132 (onInstance false true true (described 0)) = some 0x0027 ∧
    commandStatus 0x01B2 (onInstance true false true (described 0)) = some 0x0047 ∧
    commandStatus 0x00D2 (onInstance false true true (described 0)) = some 0x0027 ∧
    commandStatus 0x0152 (onInstance true false true (described 0)) = some 0x0047 ∧
    commandStatus 0x0132 (onInstance true true false (described 0)) = some 0x002B ∧
    commandStatus 0x0132 (onInstance false true false (described 0)) = some 0x0027 ∧
    commandStatus 0x00B2 (described 0) = some 0x002F ∧
    commandStatus 0x01D2 (onInstance true false true (described 0)) = some 0x002F ∧
    commandStatus 0x0032 (described 0) = some 0x002F ∧ commandStatus 0x00B1 (described 0) = some 0x002F ∧
    commandStatus 0x0061 (described 0) = some 0x002F ∧ commandStatus 0x0035 (described 0) = some 0x002F ∧
    commandStatus 0x0000 (described 0) = some 0x002F ∧ commandStatus 0x1031 (described 0) = some 0x002F ∧
    commandStatus 0x0231 (described 0) = some 0x002F ∧
    commandStatus 0x0031 (onInstance false false false (described 0)) = some 0x0001 := by decide +kernel

/-- Descriptors at the edge of their range (R39, R205; 95_test_vectors 5.3). -/
theorem test_descriptor_errors :
    commandStatus 0x0031 (described 0xA000000000000000) = some 0x004F ∧
    commandStatus 0x0031 (described 0x2000000000000000) = some 0x0001 ∧
    commandStatus 0x0031 (described 0x9FFFFFFFFFFFFFFF) = some 0x0001 ∧
    commandStatus 0x0132 { described 0 with srcDesc := (described 0).srcDesc.set (3 : Lane) (some 0xC000000000000000) } =
      some 0x004F ∧
    commandStatus 0x0132 { described 0 with srcDesc := (described 0).srcDesc.set (4 : Lane) (some 0xC000000000000000) } =
      some 0x0001 ∧
    commandStatus 0x0132 (onInstance false true true (described 0xC000000000000000)) = some 0x0027 := by decide +kernel

/-- `HASH`, all six. -/
theorem test_hash_accepts :
    accepted (exec .hashMd5 (described (present 3))) =
    some ⟨0x0001, .sInit, .md5, .k1⟩ ∧
    accepted (exec .hashSha1 (described (present 3))) =
    some ⟨0x0001, .sInit, .sha1, .k1⟩ ∧
    accepted (exec .hashSha224 (described (present 3))) =
    some ⟨0x0001, .sInit, .sha224, .k1⟩ ∧
    accepted (exec .hashSha256 (described (present 3))) =
    some ⟨0x0001, .sInit, .sha256, .k1⟩ ∧
    accepted (exec .hashSha384 (described (present 3))) =
    some ⟨0x0001, .sInit, .sha384, .k1⟩ ∧
    accepted (exec .hashSha512 (described (present 3))) =
    some ⟨0x0001, .sInit, .sha512, .k1⟩ := by
  decide +kernel

/-- `HASHPAR`, all six. -/
theorem test_hashpar_accepts :
    accepted (exec (.hashparMd5 .k8) (described (present 3))) =
    some ⟨0x0001, .pInit, .md5, .k8⟩ ∧
    accepted (exec (.hashparSha1 .k4) (described (present 3))) =
    some ⟨0x0001, .pInit, .sha1, .k4⟩ ∧
    accepted (exec (.hashparSha224 .k8) (described (present 3))) =
    some ⟨0x0001, .pInit, .sha224, .k8⟩ ∧
    accepted (exec (.hashparSha256 .k4) (described (present 3))) =
    some ⟨0x0001, .pInit, .sha256, .k4⟩ ∧
    accepted (exec (.hashparSha384 .k4) (described (present 3))) =
    some ⟨0x0001, .pInit, .sha384, .k4⟩ ∧
    accepted (exec (.hashparSha512 .k2) (described (present 3))) =
    some ⟨0x0001, .pInit, .sha512, .k2⟩ := by
  decide +kernel

/-- Accept leaves no buffer of an earlier command readable (R13): the blocks and states of its lanes, and the shared arrays;
those of the other lanes stay (R20, R173). -/
theorem test_accept_drops_buffers :
    ((nextOf (exec .hashSha256 lanesOfEarlierCall)).map fun s => (s.w, s.lw, s.ls)) = some (none, none, none) ∧
    ((nextOf (exec .hashSha256 lanesOfEarlierCall)).map fun s => (s.blk[(0 : Lane)], s.dig[(0 : Lane)])) =
      some (none, none) ∧
    ((nextOf (exec .hashSha256 lanesOfEarlierCall)).map fun s => s.blk[(1 : Lane)]) = some (some [0x61]) := by
  decide +kernel

/-! ### The host's side -/

theorem test_cap : capWord Config.params = 0x0007 ∧ capWord ⟨true, false, true, 1, 2, 2⟩ = 0x0005 := by decide

/-- The host reads `STATUS` after reset: 0x0000 (R45). -/
theorem test_read_status : (nextOf (readRegister 1 State.reset)).map (fun s => s.hostData) = some (some 0) := by decide

/-- The first move of P1 (95_test_vectors section 6): the descriptor of "abc". -/
theorem test_write_descriptor :
    (nextOf (writeRegister 0x10 0x8000000000000003 State.reset)).map (fun s => s.srcDesc[(0 : Lane)]) =
    some (some 0x8000000000000003) := by decide

/-- P1's command, run by the step after it is placed (R170). -/
theorem test_placed_command :
    accepted (step (State.reset.withFetchWord 16 0x0031)) = some ⟨0x0001, .sInit, .sha256, .k1⟩ := by
  decide +kernel

/-- A placed micro-operation is run by the next step. -/
theorem test_placed_micro_operation :
    digestWords (step (State.reset.withFetchWord 16 0x0003)) 0 =
    some [0x67452301, 0xEFCDAB89, 0x98BADCFE, 0x10325476] := by decide

/-- The fields of `STATUS` (R21, 95_test_vectors 5.3): 0x0047 is `FAILED`, `CAPABILITY`, `INFO = 2`. -/
theorem test_status_fields :
    statusState 0x0047 = 3 ∧ statusErr 0x0047 = 1 ∧ statusInfo 0x0047 = 2 ∧
    CoreError.err .prepAfterDone = 3 ∧ CoreError.info .prepAfterDone = 3 ∧ CoreError.info .bufferSizeMismatch = 4 := by
  decide

/-- The decision of 95_test_vectors section 6, P2: two streams active of four, the threshold 2: downgrade. -/
theorem test_loop_test :
    (nextOf (coreStep { State.reset with
      status := 0x0001
      ctx := some ⟨.sha256, .k4⟩
      seq := ⟨.pTest, 0⟩
      sc := #v[some (streamAt 3 3 .done), some (streamAt 0 0 .done), some (streamAt 56 56 .markerWritten),
        some (streamAt 64 64 .active), none, none, none, none] })).map (fun s => s.seq) =
    some ⟨.dNext, 0⟩ := by decide +kernel

/-! ### A witness for every statement that has hypotheses: a concrete state and operands that meet them -/

/-- A running command in which every element holds a value: all streams alike, all buffers of the right shape. -/
def full (a : Alg) (k : LaneCount) (q : Seq) (c : StreamContext) (n : Bool) : State where
  params := Config.params
  status := 0x0001
  seq := q
  ctx := some ⟨a, k⟩
  sc := Vector.replicate 8 (some c)
  newDone := Vector.replicate 8 (some n)
  blk := Vector.replicate 8 (some (zeros a.blockBytes))
  w := some (WordArray.ofWords a.width (List.replicate a.steps 0))
  lw := some (VectorArray.ofVectors a.width (List.replicate a.steps (List.replicate k.lanes 0)))
  ls := some (VectorArray.ofVectors a.width (List.replicate a.stateWords (List.replicate k.lanes 0)))
  dig := Vector.replicate 8 (some (WordArray.ofWords a.width (List.replicate a.stateWords 0)))
  out := Vector.replicate 8 none
  outLen := none
  srcDesc := Vector.replicate 8 (some 0)
  cmd := some 0x0001
  src := []
  host := []
  hostData := none
  issue := none

/-- A stream of `len` bytes not yet begun. -/
def fresh (len : Nat) : StreamContext := streamAt len 0 .active

/-- A finished stream of 3 bytes. -/
def finished : StreamContext := streamAt 3 3 .done

/-- A result as the host finds it: `DONE`, K = 2, 64 bytes in lanes 0 and 1. -/
def finishedCall : State :=
  { full .sha512 .k2 ⟨.done, 0⟩ finished true with
    status := 0x0002
    out := #v[some (pat 0 0 64), some (pat 0 0 64), none, none, none, none, none, none]
    outLen := some 64 }

/-- The next state exists. -/
def moves (r : Result) : Bool := (nextOf r).isSome

theorem exists_next {r : Result} (h : moves r = true) : ∃ t, r = .next t := by
  cases r with
  | next t => exact ⟨t, rfl⟩
  | fault e => cases h
  | refused e => cases h

/-- A step that leaves a running command. -/
def startsRunning (r : Result) : Bool := ((nextOf r).map State.busy).getD false

theorem exists_busy {r : Result} (h : startsRunning r = true) : ∃ t, r = .next t ∧ t.busy = true := by
  cases r with
  | next t => exact ⟨t, rfl, h⟩
  | fault e => cases h
  | refused e => cases h

theorem exists_stopped {r : Result} (h : (nextOf r).map State.busy = some false) : ∃ t, r = .next t ∧ t.busy = false := by
  cases r with
  | next t => exact ⟨t, rfl, by simpa [nextOf] using h⟩
  | fault e => cases h
  | refused e => cases h

theorem fresh_ok : (fresh 3).Ok := by unfold StreamContext.Ok; decide +kernel

theorem finished_ok : finished.Ok := by unfold StreamContext.Ok; decide +kernel

theorem full_sc (a : Alg) (k : LaneCount) (q : Seq) (c : StreamContext) (n : Bool) (i : Lane) :
    (full a k q c n).sc[i] = some c := by simp [full]

theorem full_inv : (full .md5 .k4 ⟨.pTest, 0⟩ (fresh 3) false).Inv := by
  refine ⟨rfl, (by decide : (0x0001 : BitVec 16) = statusWord .busy 0 0), by decide, fun i c h => ?_⟩
  rw [full_sc] at h
  cases h
  exact fresh_ok

/-- Ready at the scalar path's start, at the lane path's start, and at the last step of a full-width call. -/
theorem ready_scalar : (full .md5 .k1 ⟨.sInit, 0⟩ (fresh 3) false).Ready :=
  ⟨by decide, .md5, .k1, rfl, fun i _ => ⟨_, full_sc .., fresh_ok⟩, rfl⟩

theorem ready_parallel : (full .sha256 .k8 ⟨.pInit, 0⟩ (fresh 3) false).Ready :=
  ⟨by decide, .sha256, .k8, rfl, fun i _ => ⟨_, full_sc .., fresh_ok⟩, by decide,
    fun i _ => by simp [State.streamDone, full, fresh, streamAt]⟩

theorem ready_last : (full .sha256 .k8 ⟨.fFinal, 8⟩ finished true).Ready :=
  ⟨by decide, .sha256, .k8, rfl, fun i _ => ⟨_, full_sc .., finished_ok⟩, by decide, by decide,
    fun i _ => ⟨by simp [State.streamDone, full, finished, streamAt],
      by simp [State.digestReady, full, Alg.stateWords, Family.stateWords, WordArray.ofWords, wordsOf, WordArray.words?]⟩⟩

theorem test_hyps_DecodeEncodeRoundTrip :
    (Instr.snapMd5 .k8 7).wf = true ∧ decode 0x0F8A = .ok (.snapMd5 .k8 7) := by decide

theorem test_hyps_IllegalMicroOperationRefused :
    (∃ (s : State) (w : BitVec 16), s.Ready ∧ issuedWord s = some w) ∧
    (∃ (s : State) (w : BitVec 16), s.issue = some w ∧ legalWord w.toNat = false) ∧
    (∃ i : Instr, i.isCommand = false ∧ i.wf = false) :=
  ⟨⟨_, 0x0003, ready_scalar, by decide⟩, ⟨{ State.reset with issue := some 0x0935 }, 0x0935, rfl, by decide⟩,
    ⟨.packSha256 .k1, by decide⟩⟩

theorem test_hyps_StepRunsDecodedInstruction :
    (∃ (s : State) (w : BitVec 16) (i : Instr), s.issue = some w ∧ decode w = .ok i ∧ i.isCommand = false) ∧
    (∃ (s : State) (v : BitVec 64) (rest : List HostMove) (i : Instr), s.issue = none ∧
      s.host = .writeReg 0 v :: rest ∧ decode (v.setWidth 16) = .ok i ∧ i.isCommand = true ∧ s.busy = false) ∧
    (∃ (s : State) (c : CommandContext) (r : SeqRow) (m : Op × Lane) (i : Instr), s.Quiet ∧
      s.seq.phase.terminal = false ∧ s.ctx = some c ∧ seqRow c.k s = .ok r ∧ r.micro = some m ∧
      decode (wordOfFields m.1 c.alg c.k m.2) = .ok i ∧ i.isCommand = false) :=
  ⟨⟨{ State.reset with issue := some 0x0735 }, 0x0735, .prepSha256 .k4 3, rfl, by decide, rfl⟩,
    ⟨{ State.reset with host := [.writeReg 0 0x0031] }, 0x0031, [], .hashSha256, rfl, rfl, by decide, rfl, by decide⟩,
    ⟨full .sha256 .k4 ⟨.dSched, 3⟩ (fresh 3) false, ⟨.sha256, .k4⟩, issues .sched 3 ⟨.dComp, 3⟩, (.sched, 3),
      .schedSha256 .k4 3, ⟨rfl, rfl⟩, rfl, rfl, rfl, rfl, by decide, rfl⟩⟩

theorem test_hyps_ResetAtAnyTime : ∃ (s : State) (rest : List HostMove),
    s.issue = none ∧ s.host = .reset :: rest ∧ s.busy = true :=
  ⟨{ full .md5 .k4 ⟨.pTest, 0⟩ (fresh 3) false with host := [.reset, .pass] }, [.pass], rfl, rfl, by decide⟩

theorem test_hyps_CapIsHardwired : State.reset.busy = false ∧ 3 ≤ 15 := by decide

theorem test_hyps_HostRegisterMap :
    ((4 ≤ 4 ∧ 4 ≤ 0x0F ∨ 0x18 ≤ 4) ∧ (4 ≤ 0x0F ∧ 0x0F ≤ 0x0F ∨ 0x18 ≤ 0x0F) ∧ (4 ≤ 0x18 ∧ 0x18 ≤ 0x0F ∨ 0x18 ≤ 0x18)) ∧
    State.reset.busy = false ∧ (∃ t, writeRegister 0x17 1 State.reset = .next t) ∧
    (∃ t, writeRegister 0 0x0031 (described 0) = .next t) ∧
    (finishedCall.busy = false ∧ finishedCall.cmd = some 0x0001) :=
  ⟨by decide, by decide, exists_next (by decide), exists_next (by decide), by decide, rfl⟩

/-- A read of `OUTLEN` and of the last byte of a result; the last source byte there is, and the first there is not. -/
theorem test_hyps_HostReadsAndSourceWrites :
    (∃ t, readRegister 3 finishedCall = .next t) ∧ (∃ t, readOutByte 1 63 finishedCall = .next t) ∧
    (∀ p ∈ [2 ^ 61 - 1, 2 ^ 61], ∃ (s : State) (rest : List HostMove), s.issue = none ∧
      s.host = .writeSource 7 p 0xFF :: rest ∧ s.busy = false ∧ Memory.wf s.src = true) ∧
    2 ^ 61 - 1 < 2 ^ 61 ∧ (6 : Lane) ≠ 7 :=
  ⟨exists_next (by decide), exists_next (by decide +kernel),
    fun p _ => ⟨{ State.reset with host := [.writeSource 7 p 0xFF] }, [], rfl, rfl, rfl, rfl⟩, by decide, by decide⟩

theorem test_hyps_PrivateStateIsPrivate :
    (∃ (s t : State) (m : HostMove) (rest : List HostMove), s.issue = none ∧ s.host = m :: rest ∧
      (∀ v, m ≠ .writeReg 0 v) ∧ m ≠ .reset ∧ m ≠ .pass ∧ m ≠ .await ∧ step s = .next t) ∧
    (∃ s t u : State, s ≠ t ∧ t.params = s.params ∧ t.status = s.status ∧ t.cmd = s.cmd ∧
      t.outLen = s.outLen ∧ t.srcDesc = s.srcDesc ∧ readRegister 1 s = .next u) ∧
    ∃ s t u : State, s ≠ t ∧ t.status = s.status ∧ t.outLen = s.outLen ∧ t.out = s.out ∧
      t.ctx.map CommandContext.k = s.ctx.map CommandContext.k ∧ readOutByte 1 63 s = .next u := by
  refine ⟨?_, ?_, ?_⟩
  · obtain ⟨t, h⟩ := exists_next (r := step { finishedCall with host := [.readOut 1 63] }) (by decide +kernel)
    exact ⟨_, t, .readOut 1 63, [], rfl, rfl, by simp, by simp, by simp, by simp, h⟩
  · exact ⟨finishedCall, { finishedCall with w := none }, _, mt (congrArg State.w) (by decide),
      rfl, rfl, rfl, rfl, rfl, rfl⟩
  · obtain ⟨u, hu⟩ := exists_next (r := readOutByte 1 63 finishedCall) (by decide +kernel)
    exact ⟨finishedCall, { finishedCall with w := none }, u, mt (congrArg State.w) (by decide), rfl, rfl, rfl, rfl, hu⟩

/-- The four clauses meet nowhere: the first at the last lane and byte, the others one beyond; not `DONE` after reset and
while a command runs. -/
theorem test_hyps_OutputValidity :
    (finishedCall.isDone = true ∧ finishedCall.ctx = some ⟨.sha512, .k2⟩ ∧
      finishedCall.outLen = some 64 ∧ finishedCall.out[(1 : Lane)] = some (pat 0 0 64) ∧
      (64 : BitVec 8).toNat ≤ (pat 0 0 64).length ∧ (1 : Lane).val < LaneCount.k2.lanes ∧ 63 < (64 : BitVec 8).toNat) ∧
    (State.reset.isDone = false ∧ (full .md5 .k1 ⟨.sInit, 0⟩ (fresh 3) false).isDone = false) ∧ LaneCount.k2.lanes ≤ (2 : Lane).val ∧
    (64 : BitVec 8).toNat ≤ 64 := by decide

theorem test_hyps_UnitsComputeWordOperations :
    ∃ (w K j : Nat) (_ : Amount w) (x y : List (BitVec w)), x.length = K ∧ y.length = K ∧ j < K :=
  ⟨32, 4, 3, amount 31, [1, 2, 3, 4], [5, 6, 7, 8], by decide⟩

theorem test_hyps_ByteConversions : (abcBlock .sha512).length = 128 := by decide

/-- The longest length there is, and an absent source with bits that do not count. -/
theorem test_hyps_HashAccepts :
    ∃ (s : State) (d : BitVec 64), s.busy = false ∧ s.srcDesc[(0 : Lane)] = some d ∧ descriptorOk d ∧
      descLength d = 0x1FFFFFFFFFFFFFFF :=
  ⟨described 0x9FFFFFFFFFFFFFFF, 0x9FFFFFFFFFFFFFFF, by decide, rfl, fun _ => by decide, by decide⟩

theorem test_hyps_HashAccepts_absent :
    ∃ (s : State) (d : BitVec 64), s.busy = false ∧ s.srcDesc[(0 : Lane)] = some d ∧ descriptorOk d ∧ descLength d = 0 :=
  ⟨described 0x7FFFFFFFFFFFFFFF, 0x7FFFFFFFFFFFFFFF, by decide, rfl, fun h => absurd h (by decide), by decide⟩

/-- Both widths: `HASHPAR.MD5.K4` on 128 bits, `HASHPAR.SHA512.K4` on 256. -/
theorem test_hyps_HashparAccepts :
    (described 0).busy = false ∧
    (LaneCount.k4.lanes * Alg.md5.width.bits = 128 ∧ (described 0).params.cap128 = true) ∧
    (LaneCount.k4.lanes * Alg.sha512.width.bits = 256 ∧ (described 0).params.cap256 = true) ∧
    (described 0).params.hostLe = true ∧
    ∀ i : Lane, i.val < 8 → (described 0).srcDesc[i] = some 0 ∧ descriptorOk 0 :=
  ⟨by decide, by decide, by decide, rfl, fun i _ => ⟨by fin_cases i <;> rfl, fun h => absurd h (by decide)⟩⟩

theorem test_hyps_IllegalCommandFails :
    State.reset.busy = false ∧ ([0x0000, 0x0003, 0x000B, 0x000C, 0x0061, 0x0081, 0x0082, 0x01C2, 0x0201, 0x1001].all
      fun w => illegalFromHost w) = true ∧
    ([0x0001, 0x0051, 0x0182, 0x00D2].any fun w => illegalFromHost w) = false := by decide

theorem test_hyps_ErrorPriority :
    (described 0).busy = false ∧
    (LaneCount.k2.lanes * Alg.md5.width.bits ≠ 128 ∧ LaneCount.k2.lanes * Alg.md5.width.bits ≠ 256) ∧
    (LaneCount.k2.lanes * Alg.sha384.width.bits = 128 ∧ (onInstance false true false (described 0)).params.cap128 = false) ∧
    (LaneCount.k8.lanes * Alg.sha1.width.bits = 256 ∧ (onInstance true false false (described 0)).params.cap256 = false) ∧
    ((LaneCount.k8.lanes * Alg.sha1.width.bits = 256 ∧ (onInstance false true false (described 0)).params.cap256 = true) ∧
      (onInstance false true false (described 0)).params.hostLe = false) := by decide

/-- The last clause, at the last lane. -/
theorem test_hyps_ErrorPriority_length :
    ∃ (s : State) (i : Lane) (d : BitVec 64), s.busy = false ∧
      LaneCount.k4.lanes * Alg.md5.width.bits = 128 ∧ s.params.cap128 = true ∧ s.params.hostLe = true ∧
      i.val < LaneCount.k4.lanes ∧ (∀ j : Lane, j.val < i.val → s.srcDesc[j] ≠ none) ∧
      s.srcDesc[i] = some d ∧ ¬ descriptorOk d :=
  ⟨described 0xA000000000000000, 3, 0xA000000000000000, by decide, by decide, rfl, rfl, by decide,
    fun j _ => by fin_cases j <;> simp [described], rfl, fun h => absurd (h (by decide)) (by decide)⟩

theorem test_hyps_HashLengthTooLarge :
    ∃ (s : State) (d : BitVec 64), s.busy = false ∧ s.srcDesc[(0 : Lane)] = some d ∧ ¬ descriptorOk d :=
  ⟨described 0xC000000000000000, 0xC000000000000000, by decide, rfl, fun h => absurd (h (by decide)) (by decide)⟩

theorem test_hyps_HostContractRefusals :
    (∃ (s : State) (m : HostMove) (rest : List HostMove), s.issue = none ∧ s.host = m :: rest ∧ s.busy = true ∧
      m ≠ .readReg 1 ∧ m ≠ .readReg 3 ∧ (∀ (i : Lane) (p : Nat), m ≠ .readOut i p) ∧
      m ≠ .reset ∧ m ≠ .pass ∧ m ≠ .await) ∧
    (∃ s : State, s.issue = none ∧ s.busy = true ∧ s.host = [.readReg 3]) ∧
    (∃ s : State, s.issue = none ∧ s.busy = true ∧ s.host = [.readOut 0 0]) ∧
    (full .md5 .k1 ⟨.sInit, 0⟩ (fresh 3) false).busy = true ∧
    (State.reset.busy = false ∧ State.reset.srcDesc[(0 : Lane)] = none) ∧
    ∃ (s : State) (i : Lane), s.busy = false ∧
      LaneCount.k8.lanes * Alg.sha256.width.bits = 256 ∧ s.params.cap256 = true ∧ s.params.hostLe = true ∧
      i.val < LaneCount.k8.lanes ∧ s.srcDesc[i] = none ∧
      ∀ j : Lane, j.val < i.val → ∃ d, s.srcDesc[j] = some d ∧ descriptorOk d :=
  ⟨⟨{ full .md5 .k1 ⟨.sInit, 0⟩ (fresh 3) false with host := [.readReg 2] }, .readReg 2, [], rfl, rfl, by decide,
      by decide, by decide, by simp, by decide, by decide, by decide⟩,
    ⟨{ full .md5 .k1 ⟨.sInit, 0⟩ (fresh 3) false with host := [.readReg 3] }, rfl, by decide, rfl⟩,
    ⟨{ full .md5 .k1 ⟨.sInit, 0⟩ (fresh 3) false with host := [.readOut 0 0] }, rfl, by decide, rfl⟩,
    by decide, by decide,
    ⟨{ described 0 with srcDesc := (described 0).srcDesc.set (7 : Lane) none }, 7, by decide, by decide, rfl, rfl,
      by decide, rfl,
      fun j h => ⟨0, by fin_cases j <;> first | rfl | exact absurd h (by decide), fun h => absurd h (by decide)⟩⟩⟩

/-- Exactly one block left. -/
theorem test_hyps_PrepFullBlock :
    formOk .prep .sha256 .k4 3 = true ∧ (fresh 64).ph = .active ∧ (fresh 64).len.toNat ≤ maxLen ∧
    (fresh 64).cur.toNat + Alg.sha256.blockBytes ≤ (fresh 64).len.toNat := by decide

/-- One byte left, and the four lengths of tail at which the two outcomes meet, for both block sizes. -/
theorem test_hyps_PrepLastBytes :
    formOk .prep .md5 .k1 0 = true ∧
    (∀ r ∈ [1, 55, 56, 63], (streamAt (64 + r) 64 .active).cur.toNat + r = (streamAt (64 + r) 64 .active).len.toNat ∧
      (streamAt (64 + r) 64 .active).len.toNat ≤ maxLen ∧ 0 < r ∧ r < Alg.md5.blockBytes) ∧
    (∀ r ∈ [1, 111, 112, 127], (fresh r).cur.toNat + r = (fresh r).len.toNat ∧
      (fresh r).len.toNat ≤ maxLen ∧ 0 < r ∧ r < Alg.sha512.blockBytes) := by decide +kernel

theorem test_hyps_PrepPadding :
    formOk .prep .sha384 .k2 1 = true ∧
    ((streamAt 128 128 .active).ph = .active ∧ (streamAt 128 128 .active).cur = (streamAt 128 128 .active).len) ∧
    (streamAt 56 56 .markerWritten).ph = .markerWritten := by decide

theorem test_hyps_PrepAfterDone : formOk .prep .sha1 .k8 7 = true ∧ finished.ph = .done ∧
    (full .sha1 .k8 ⟨.pPrep, 7⟩ finished true).sc[(7 : Lane)] = some finished := by decide

theorem test_hyps_PrepIsStreamLocal :
    ∃ (s t u : State), s.sc[(0 : Lane)] = some (fresh 3) ∧ (fresh 3).ph ≠ .done ∧
      exec (.prepSha256 .k4 0) s = .next t ∧ s.sc[(3 : Lane)] = some (fresh 3) ∧ exec (.prepSha256 .k4 3) t = .next u ∧
      ∃ s' : State, s'.sc[(0 : Lane)] = s.sc[(0 : Lane)] ∧ s'.src ≠ s.src ∧
        ∀ p < (fresh 3).len.toNat, readByte s'.src (sourceAddress 0 p) = readByte s.src (sourceAddress 0 p) := by
  obtain ⟨u, h⟩ := exists_next
    (r := andThen (exec (.prepSha256 .k4 0) (full .sha256 .k4 ⟨.pPrep, 0⟩ (fresh 3) false)) (exec (.prepSha256 .k4 3)))
    (by decide +kernel)
  cases hx : exec (.prepSha256 .k4 0) (full .sha256 .k4 ⟨.pPrep, 0⟩ (fresh 3) false) with
  | next t => rw [hx] at h; exact ⟨_, t, u, full_sc .., by decide, hx, full_sc .., h,
      { full .sha256 .k4 ⟨.pPrep, 0⟩ (fresh 3) false with src := [(3, 0x61)] }, rfl, by decide, fun p hp => by
        have h3 : (fresh 3).len.toNat = 3 := by decide
        have : sourceAddress 0 p ≠ 3 := by simp only [sourceAddress]; omega
        simp only [readByte, this, if_false, full]⟩
  | fault e => rw [hx] at h; cases h
  | refused e => rw [hx] at h; cases h

/-- The lengths at which a block is added, and the longest one. -/
theorem test_hyps_BlockCount :
    formOk .prep .sha256 .k1 0 = true ∧
    ∀ n ∈ [0, 55, 56, 64, 2 ^ 61 - 1], (fresh n).Ok ∧ (fresh n).ph = .active ∧ (fresh n).cur = 0 :=
  ⟨by decide, by unfold StreamContext.Ok; decide +kernel⟩

theorem test_hyps_BlocksSpellPaddedMessage :
    formOk .prep .sha512 .k4 3 = true ∧
    ∀ n ∈ [0, 111, 112, 128, 2 ^ 61 - 1], (fresh n).Ok ∧ (fresh n).ph = .active ∧ (fresh n).cur = 0 :=
  ⟨by decide, by unfold StreamContext.Ok; decide +kernel⟩

theorem test_hyps_StreamContextInvariants :
    ∃ s t : State, s.Inv ∧ coreStep s = .next t ∧ s.sc[(0 : Lane)] = some (fresh 3) := by
  obtain ⟨t, h⟩ := exists_next (r := coreStep (full .md5 .k4 ⟨.pTest, 0⟩ (fresh 3) false)) (by decide)
  exact ⟨_, t, full_inv, h, full_sc ..⟩

theorem test_hyps_InitsSeedsState :
    formOk .inits .md5 .k8 7 = true ∧ formOk .inits .sha1 .k1 0 = true ∧ formOk .inits .sha224 .k4 3 = true ∧
    formOk .inits .sha256 .k8 0 = true ∧ formOk .inits .sha384 .k2 1 = true ∧ formOk .inits .sha512 .k4 3 = true := by
  decide

theorem test_hyps_ScheduleOf :
    formOk .sched .md5 .k8 7 = true ∧ formOk .sched .sha1 .k1 0 = true ∧ formOk .sched .sha224 .k4 3 = true ∧
    formOk .sched .sha256 .k1 0 = true ∧ formOk .sched .sha384 .k4 3 = true ∧ formOk .sched .sha512 .k2 1 = true ∧
    (abcBlock .md5).length = 64 ∧ (abcBlock .sha512).length = 128 ∧
    (withBlock (abcBlock .sha1)).blk[(0 : Lane)] = some (abcBlock .sha1) := by decide

theorem test_hyps_CompressionOf :
    formOk .comp .md5 .k8 7 = true ∧ formOk .comp .sha1 .k4 3 = true ∧ formOk .comp .sha224 .k1 0 = true ∧
    formOk .comp .sha256 .k8 7 = true ∧ formOk .comp .sha384 .k2 1 = true ∧ formOk .comp .sha512 .k4 3 = true ∧
    (full .md5 .k8 ⟨.dComp, 7⟩ (fresh 3) false).dig[(7 : Lane)] = some (.w32 [0, 0, 0, 0]) ∧
    (full .sha1 .k4 ⟨.dComp, 3⟩ (fresh 3) false).dig[(3 : Lane)] = some (.w32 [0, 0, 0, 0, 0]) ∧
    (full .sha224 .k1 ⟨.sComp, 0⟩ (fresh 3) false).dig[(0 : Lane)] = some (.w32 [0, 0, 0, 0, 0, 0, 0, 0]) ∧
    (full .sha512 .k4 ⟨.dComp, 3⟩ (fresh 3) false).dig[(3 : Lane)] = some (.w64 [0, 0, 0, 0, 0, 0, 0, 0]) ∧
    (full .md5 .k8 ⟨.dComp, 7⟩ (fresh 3) false).w = some (.w32 (List.replicate 64 0)) ∧
    (full .sha1 .k4 ⟨.dComp, 3⟩ (fresh 3) false).w = some (.w32 (List.replicate 80 0)) ∧
    (full .sha224 .k1 ⟨.sComp, 0⟩ (fresh 3) false).w = some (.w32 (List.replicate 64 0)) ∧
    (full .sha512 .k4 ⟨.dComp, 3⟩ (fresh 3) false).w = some (.w64 (List.replicate 80 0)) := by
  decide +kernel

theorem test_hyps_InitlBroadcasts :
    laneCountLegal .md5 .k4 = true ∧ laneCountLegal .sha256 .k8 = true ∧ laneCountLegal .sha512 .k2 = true ∧
    (7 : Lane).val < LaneCount.k8.lanes := by decide

theorem test_hyps_PackColumnIsSchedule :
    laneCountLegal .sha384 .k4 = true ∧
    ∀ j : Lane, j.val < LaneCount.k4.lanes →
      ∃ b, (full .sha384 .k4 ⟨.pPack, 0⟩ (fresh 3) false).blk[j] = some b ∧ b.length = Alg.sha384.blockBytes :=
  ⟨by decide, fun j _ => ⟨zeros 128, by simp [full, Alg.blockBytes], by decide⟩⟩

theorem test_hyps_ComplLaneIsCompression :
    ∃ (s t : State) (hs ws : List (List (BitVec 32))), laneCountLegal .sha1 .k8 = true ∧
      s.ls = some (.w32 hs) ∧ hs.length = 5 ∧ (∀ v ∈ hs, v.length = 8) ∧
      s.lw = some (.w32 ws) ∧ ws.length = 80 ∧ (∀ v ∈ ws, v.length = 8) ∧
      t.dig[(7 : Lane)] = some (.w32 (column 0 hs 7)) ∧ t.w = some (.w32 (column 0 ws 7)) :=
  ⟨full .sha1 .k8 ⟨.pCompl, 0⟩ (fresh 3) false, full .sha1 .k8 ⟨.pCompl, 0⟩ (fresh 3) false,
    List.replicate 5 (List.replicate 8 0), List.replicate 80 (List.replicate 8 0), by decide, rfl, rfl,
    by decide, rfl, rfl, by decide +kernel, rfl, rfl⟩

theorem test_hyps_SnapCopiesSlice :
    formOk .snap .md5 .k8 7 = true ∧
    (full .md5 .k8 ⟨.pSnap, 7⟩ finished true).ls = some (.w32 (List.replicate 4 (List.replicate 8 0))) ∧
    (List.replicate 4 (List.replicate 8 (0 : BitVec 32))).length = Alg.md5.stateWords ∧
    ∀ v ∈ List.replicate 4 (List.replicate 8 (0 : BitVec 32)), v.length = LaneCount.k8.lanes := by decide

theorem test_hyps_FinalSerialisesDigest :
    formOk .final .sha384 .k4 3 = true ∧ formOk .final .md5 .k1 0 = true ∧
    (full .sha384 .k4 ⟨.fFinal, 3⟩ finished true).dig[(3 : Lane)] = some (.w64 (List.replicate 8 0)) ∧
    (List.replicate 8 (0 : BitVec 64)).length = Alg.sha384.stateWords := by decide

/-- The state after reset meets the hypotheses of the clauses that read one element, at the one lane of `HASH` and at the
last lane of a call; the two with a readable state and no schedule, and the clause for a later lane, need a state of their
own. -/
theorem test_hyps_UnwrittenReadsFault :
    (∀ op ∈ [Op.prep, .sched, .comp, .final], formOk op .sha256 .k1 0 = true ∧ formOk op .sha256 .k4 3 = true) ∧
    (formOk .pack .sha256 .k4 0 = true ∧ formOk .compl .sha256 .k4 0 = true ∧ formOk .snap .sha256 .k4 3 = true) ∧
    (3 : Lane).val < LaneCount.k4.lanes ∧
    (∀ i : Lane, State.reset.sc[i] = none ∧ State.reset.blk[i] = none ∧ State.reset.dig[i] = none) ∧
    State.reset.ls = none ∧
    (∃ s : State, s.digestReady .sha256 0 ∧ s.w = none) ∧
    (∃ s : State, s.blk[(3 : Lane)] = none ∧ ∀ j : Lane, j.val < (3 : Lane).val → s.blk[j] ≠ none) ∧
    (∃ s : State, s.laneStateReady .sha256 .k4 ∧ s.lw = none) :=
  ⟨by decide, by decide, by decide, by decide, rfl,
    ⟨{ full .sha256 .k1 ⟨.sComp, 0⟩ (fresh 3) false with w := none }, by unfold State.digestReady; decide, rfl⟩,
    ⟨{ State.reset with blk := #v[some [], some [], some [], none, none, none, none, none] }, rfl, by decide⟩,
    ⟨{ full .sha256 .k4 ⟨.pCompl, 0⟩ (fresh 3) false with lw := none }, by unfold State.laneStateReady; decide, rfl⟩⟩

/-- `SCHED` and `COMP` also in the form `HASH` uses. -/
theorem test_hyps_WrongSizesRaise :
    (formOk .sched .md5 .k1 0 = true ∧ formOk .sched .md5 .k4 0 = true ∧ formOk .comp .md5 .k1 0 = true ∧
      formOk .pack .md5 .k4 0 = true ∧ formOk .compl .md5 .k4 0 = true) ∧
    (∃ (s : State) (b : List Byte), s.blk[(0 : Lane)] = some b ∧ b.length ≠ Alg.md5.blockBytes ∧
      ∀ j : Lane, j.val < LaneCount.k4.lanes → s.blk[j] ≠ none) ∧
    (∀ x ∈ [WordArray.w32 [], .w64 (List.replicate 64 0)], ∃ s : State, s.digestReady .md5 0 ∧ s.w = some x ∧
      ∀ ws : List (BitVec 32), ws.length = 64 → x ≠ .w32 ws) ∧
    (∀ x ∈ [VectorArray.w32 [], .w32 (List.replicate 64 [0]), .w64 (List.replicate 64 [0, 0, 0, 0])],
      ∃ s : State, s.laneStateReady .md5 .k4 ∧ s.lw = some x ∧
        ∀ vs : List (List (BitVec 32)), vs.length = 64 → (∀ v ∈ vs, v.length = 4) → x ≠ .w32 vs) :=
  ⟨by decide, ⟨withBlocks (zeros 63) [] [] [] [] [] [] [], zeros 63, rfl, by decide, by decide⟩,
    fun x hx => ⟨{ full .md5 .k1 ⟨.sComp, 0⟩ (fresh 3) false with w := some x }, (by decide :
        ((full .md5 .k1 ⟨.sComp, 0⟩ (fresh 3) false).dig[(0 : Lane)].bind (wordsOf .w32 4)).isSome = true), rfl,
      fun ws hl e => by
        subst e
        simp only [List.mem_cons, WordArray.w32.injEq, reduceCtorEq, List.not_mem_nil, or_false] at hx
        subst hx; cases hl⟩,
    fun x hx => ⟨{ full .md5 .k4 ⟨.pCompl, 0⟩ (fresh 3) false with lw := some x }, (by decide :
        ((full .md5 .k4 ⟨.pCompl, 0⟩ (fresh 3) false).ls.bind (vectorsOf .w32 4 4)).isSome = true), rfl,
      fun vs hl hv e => by
        subst e
        simp only [List.mem_cons, VectorArray.w32.injEq, reduceCtorEq, List.not_mem_nil, or_false] at hx
        rcases hx with rfl | rfl
        · cases hl
        · exact absurd (hv [0] (List.mem_replicate.2 ⟨by decide, rfl⟩)) (by decide)⟩⟩

theorem test_hyps_OnlyWritersWrite :
    ∃ (j : Instr) (s t : State), j.isCommand = false ∧ exec j s = .next t ∧ ∀ e, t ≠ s.raiseInternal e :=
  ⟨.initsMd5 .k1 0, State.reset, _, rfl, rfl, fun e h => by
    have := congrArg State.seq h
    revert this
    cases e <;> decide⟩

theorem test_hyps_SequencerFollowsHashTable :
    (∃ s t : State, exec .hashSha1 s = .next t ∧ t.busy = true) ∧
    (∀ p ∈ [SeqPhase.sInit, .sTest, .sSched, .sComp, .sFinal],
      (full .sha1 .k1 ⟨p, 0⟩ (fresh 3) false).ctx = some ⟨.sha1, .k1⟩) ∧
    ((full .sha1 .k1 ⟨.sTest, 0⟩ (fresh 3) false).sc[(0 : Lane)] = some (fresh 3) ∧ (fresh 3).ph ≠ .done) ∧
    ((full .sha1 .k1 ⟨.sTest, 0⟩ finished true).sc[(0 : Lane)] = some finished ∧ finished.ph = .done) ∧
    ∃ t, exec (.finalSha1 .k1 0) { full .sha1 .k1 ⟨.sFinal, 0⟩ finished true with seq := ⟨.done, 0⟩ } = .next t :=
  ⟨⟨described 0, exists_busy (by decide +kernel)⟩, by decide, ⟨full_sc .., by decide⟩, ⟨full_sc .., by decide⟩,
    exists_next (by decide)⟩

/-- A lane of the call in each phase with a lane, a fresh and a finished stream, each `NEWDONE`, and the lane index K. -/
theorem test_hyps_SequencerFollowsHashparTable :
    (∃ s t : State, exec (.hashparSha256 .k4) s = .next t ∧ t.busy = true) ∧
    laneCountLegal .sha256 .k4 = true ∧
    (full .sha256 .k4 ⟨.pTest, 0⟩ (fresh 3) false).ctx = some ⟨.sha256, .k4⟩ ∧
    (∀ i : Lane, i.val < LaneCount.k4.lanes →
      ((full .sha256 .k4 ⟨.pTest, 0⟩ (fresh 3) false).sc[i]).map StreamContext.ph = some .active) ∧
    (∀ p ∈ [SeqPhase.pPrep, .pSnap, .dNext, .dTest, .dSched, .dComp, .fFinal],
      (full .sha256 .k4 ⟨p, 3⟩ (fresh 3) false).seq.lane = (3 : Lane).val ∧ (3 : Lane).val < LaneCount.k4.lanes) ∧
    (full .sha256 .k4 ⟨.pPrep, 3⟩ finished true).sc[(3 : Lane)] = some finished ∧
    (full .sha256 .k4 ⟨.pSnap, 3⟩ finished true).newDone[(3 : Lane)] = some true ∧
    (full .sha256 .k4 ⟨.pSnap, 3⟩ (fresh 3) false).newDone[(3 : Lane)] = some false ∧
    (∀ p ∈ [SeqPhase.pPrep, .pSnap, .dNext, .fFinal],
      (full .sha256 .k4 ⟨p, 4⟩ finished true).seq.lane = LaneCount.k4.lanes) ∧
    (State.reset.seq.phase = .idle ∧ State.reset.ctx = none ∧ finishedCall.seq.phase = .done) :=
  ⟨⟨described 0, exists_busy (by decide +kernel)⟩, by decide, rfl, fun i _ => by rw [full_sc]; rfl, by decide, full_sc .., rfl, rfl, by decide, by decide⟩

theorem test_hyps_StepKeepsInvariant : ∃ s t : State, s.Inv ∧ step s = .next t := by
  obtain ⟨t, h⟩ := exists_next (r := step (full .md5 .k4 ⟨.pTest, 0⟩ (fresh 3) false)) (by decide)
  exact ⟨_, t, full_inv, h⟩

theorem test_hyps_InputsAreConstant : ∃ s t : State, step s = .next t ∧ coreStep s = .next t := by
  obtain ⟨t, h⟩ := exists_next (r := coreStep (full .md5 .k4 ⟨.pTest, 0⟩ (fresh 3) false)) (by decide)
  exact ⟨full .md5 .k4 ⟨.pTest, 0⟩ (fresh 3) false, t, h, h⟩

theorem test_hyps_AcceptedCommandIsReady :
    ∃ (i : Instr) (s t : State), i.isCommand = true ∧ exec i s = .next t ∧ t.busy = true := by
  obtain ⟨t, h⟩ := exists_busy (r := exec (.hashparSha512 .k4) (described (present 3))) (by decide +kernel)
  exact ⟨_, _, t, rfl, h⟩

theorem test_hyps_RunningCommandNeverStops :
    (full .md5 .k1 ⟨.sInit, 0⟩ (fresh 3) false).Ready ∧ (full .sha256 .k8 ⟨.pInit, 0⟩ (fresh 3) false).Ready ∧
    (full .sha256 .k8 ⟨.fFinal, 8⟩ finished true).Ready := ⟨ready_scalar, ready_parallel, ready_last⟩

theorem test_hyps_HashComputesDigest :
    ∃ (s t : State) (d : BitVec 64), s.srcDesc[(0 : Lane)] = some d ∧ exec .hashMd5 s = .next t ∧ t.busy = true := by
  obtain ⟨t, h⟩ := exists_busy (r := exec .hashMd5 (described (present 3))) (by decide +kernel)
  exact ⟨_, t, present 3, rfl, h⟩

theorem test_hyps_HashparComputesDigests :
    ∃ s t : State, exec (.hashparMd5 .k8) s = .next t ∧ t.busy = true := by
  obtain ⟨t, h⟩ := exists_busy (r := exec (.hashparMd5 .k8) (described (present 3))) (by decide +kernel)
  exact ⟨_, t, h⟩

/-- Lane 7 of eight against the scalar path, both empty sources alike. -/
theorem test_hyps_ParallelEqualsScalar :
    ∃ (s s' t t' : State) (d : BitVec 64), (7 : Lane).val < LaneCount.k8.lanes ∧
      exec (.hashparSha256 .k8) s = .next t ∧ t.busy = true ∧ exec .hashSha256 s' = .next t' ∧ t'.busy = true ∧
      s.srcDesc[(7 : Lane)] = some d ∧ s'.srcDesc[(0 : Lane)] = some d ∧
      ∀ p < (descLength d).toNat, readByte s'.src (sourceAddress 0 p) = readByte s.src (sourceAddress 7 p) := by
  obtain ⟨t, h, hb⟩ := exists_busy (r := exec (.hashparSha256 .k8) (described (present 3))) (by decide +kernel)
  obtain ⟨t', h', hb'⟩ := exists_busy (r := exec .hashSha256 (described (present 3))) (by decide +kernel)
  exact ⟨_, _, t, t', present 3, by decide, h, hb, h', hb', rfl, rfl, fun p _ => rfl⟩

/-- Two states that differ in what an earlier command left and in a source byte beyond the length. -/
theorem test_hyps_ResultDependsOnInputsOnly :
    ∃ (i : Instr) (s s' t t' : State), i.isCommand = true ∧ exec i s = .next t ∧ exec i s' = .next t' ∧
      s.outLen ≠ s'.outLen ∧ s.src ≠ s'.src ∧ s'.params = s.params ∧ t.busy = true ∧
      ∀ j : Lane, j.val < i.fields.k.lanes → s'.srcDesc[j] = s.srcDesc[j] ∧
        ∀ d, s.srcDesc[j] = some d → ∀ p < (descLength d).toNat,
          readByte s'.src (sourceAddress j p) = readByte s.src (sourceAddress j p) := by
  obtain ⟨t, h, hb⟩ := exists_busy (r := exec .hashSha256 (described (present 3))) (by decide +kernel)
  obtain ⟨t', h'⟩ := exists_next
    (r := exec .hashSha256 { described (present 3) with outLen := some 16, src := [(3, 0x61)] }) (by decide +kernel)
  refine ⟨_, _, _, t, t', rfl, h, h', by decide, by decide, rfl, hb, fun j hj => ⟨rfl, fun d hd p hp => ?_⟩⟩
  obtain rfl : j = 0 := Fin.ext (by simpa [Instr.fields, LaneCount.lanes] using hj)
  cases hd
  have h3 : (descLength (present 3)).toNat = 3 := by decide
  have : sourceAddress 0 p ≠ 3 := by simp only [sourceAddress]; omega
  simp only [readByte, this, if_false]
  rfl

/-- The clause for a command that fails: an illegal lane count. -/
theorem test_hyps_ResultDependsOnInputsOnly_failed :
    ∃ s t : State, exec (.hashparMd5 .k2) s = .next t ∧ t.busy = false :=
  ⟨State.reset, exists_stopped (by decide +kernel)⟩

/-- Two states that differ in their data alone. -/
theorem test_hyps_ControlIgnoresContents :
    ∃ s t s' t' : State, s ≠ t ∧ SameControl s t ∧ s.Ready ∧ t.Ready ∧ coreStep s = .next s' ∧ coreStep t = .next t' := by
  obtain ⟨s', hs⟩ := exists_next (r := coreStep (full .md5 .k1 ⟨.sInit, 0⟩ (fresh 3) false)) (by decide)
  obtain ⟨t', ht⟩ := exists_next
    (r := coreStep { full .md5 .k1 ⟨.sInit, 0⟩ (fresh 3) false with src := [(0, 0x61)] }) (by decide)
  exact ⟨full .md5 .k1 ⟨.sInit, 0⟩ (fresh 3) false,
    { full .md5 .k1 ⟨.sInit, 0⟩ (fresh 3) false with src := [(0, 0x61)] }, s', t',
    mt (congrArg State.src) (by decide), ⟨rfl, rfl, rfl, rfl, rfl, rfl⟩, ready_scalar,
    ready_scalar, hs, ht⟩

end Sys2Proof.Tests
end

/-! PROOF. The word and vector units (00_scope rules R10, R12). -/

namespace Sys2Proof

/-- The other half of the other half of a rotate is its amount (R10). -/
@[simp] theorem Amount.rest_rest {w : Nat} (n : Amount w) : n.rest.rest = n :=
  Subtype.ext (Nat.sub_sub_self n.property.2.le)

/-- A rotate to the right by `n` is one to the left by `w - n`, on words (R10). -/
theorem rotr_scalarUnit_eq_rotl_rest {w : Nat} (n : Amount w) (x : BitVec w) :
    rotr (scalarUnit w) n x = rotl (scalarUnit w) n.rest x := by
  simp only [rotr, rotl, Amount.rest_rest]
  exact BitVec.or_comm ..

/-- Reading lane `j` with a default, as the statements do. -/
theorem IsLane.getD_eq {w K j : Nat} {V : List (BitVec w)} {x : BitVec w} (h : IsLane K j V x) : V.getD j 0 = x := by
  simp [List.getD_eq_getElem?_getD, h.2]

/-- What is read below K is a lane of the vector. -/
theorem isLane_getD {w K j : Nat} {V : List (BitVec w)} (hV : V.length = K) (hj : j < K) : IsLane K j V (V.getD j 0) := by
  subst hV
  exact ⟨rfl, by simp [hj]⟩

/-- Settles O14: the rotates by the library's, the vector operations by `vectorUnit_lane`. -/
theorem unitsComputeWordOperations : Obligations.UnitsComputeWordOperations := by
  refine ⟨fun w n x => ⟨rfl, rfl, rotl_scalarUnit n x, rotr_scalarUnit n x, rotr_scalarUnit_eq_rotl_rest n x⟩, ?_⟩
  intro w K j n x y c hx hy hj
  have unit : UnitRel (vectorUnit w K) (scalarUnit w) (IsLane K j) := vectorUnit_lane hj
  have lx : IsLane K j x (x.getD j 0) := isLane_getD hx hj
  have ly : IsLane K j y (y.getD j 0) := isLane_getD hy hj
  exact ⟨(unit.add lx ly).getD_eq, (unit.and lx ly).getD_eq, (unit.or lx ly).getD_eq, (unit.xor lx ly).getD_eq,
    (unit.andnot lx ly).getD_eq, (unit.not lx).getD_eq, (unit.shl n lx).getD_eq, (unit.shr n lx).getD_eq,
    (unit.rotl n lx).getD_eq.trans (rotl_scalarUnit ..), (unit.rotr n lx).getD_eq.trans (rotr_scalarUnit ..),
    (unit.broadcast c).getD_eq⟩

end Sys2Proof

/-! PROOF. Accepting a command (00_scope rule R13; 44_orchestrator rules R171 to R174). -/

namespace Sys2Proof.Machine

/-! ### Descriptors and the streams made from them -/

/-- A descriptor that keeps its form gives a legal length (R39, R205). -/
theorem descTooLong_of_descriptorOk {d : BitVec 64} (h : descriptorOk d) : descTooLong d = false := by
  cases hp : d.getLsbD 63
  · simp only [descTooLong, descPresent, hp, Bool.false_and]
  · simp [descTooLong, h hp]

/-- The length of a present source is the descriptor's low 61 bits, by the mask of R39. -/
theorem extractLsb'_61_eq_and_mask (d : BitVec 64) :
    (d.extractLsb' 0 61).setWidth 64 = d &&& 0x1FFFFFFFFFFFFFFF := by
  apply BitVec.eq_of_toNat_eq
  have hmask : d.toNat &&& 0x1FFFFFFFFFFFFFFF = d.toNat % 2 ^ 61 := Nat.and_two_pow_sub_one_eq_mod d.toNat 61
  simp [hmask]
  omega

/-- The model's construction is that of R172. -/
theorem newStream_eq_streamAtConstruction (d : BitVec 64) : newStream d = streamAtConstruction d := by
  simp [newStream, streamAtConstruction, descLength, descPresent, extractLsb'_61_eq_and_mask]

/-- The descriptor check passes over written descriptors of legal length (R171); the converse of
`checkDescriptors_allFine`. -/
theorem checkDescriptors_of_described {s : State} {l : List Lane}
    (h : ∀ i ∈ l, ∃ d, s.srcDesc[i] = some d ∧ descTooLong d = false) : checkDescriptors s l = .allFine := by
  induction l with
  | nil => rfl
  | cons i l ih =>
    obtain ⟨d, hd, hl⟩ := h i (by simp)
    simpa [checkDescriptors, hd, hl] using ih fun j hj => h j (by simp [hj])

/-- Elements per lane are given lane by lane. -/
theorem perLane_eq_ofFn {α : Type} {v : PerLane α} {f : Lane → α} (h : ∀ j : Lane, v[j] = f j) : v = Vector.ofFn f :=
  Vector.ext fun j hj => by simpa using h ⟨j, hj⟩

/-- Writing the lanes of a call with K = 1 is writing lane 0. -/
theorem ofFn_k1_eq_set {α : Type} (v : PerLane α) (x : α) :
    (Vector.ofFn fun i : Lane => if i.val < LaneCount.k1.lanes then x else v[i]) = v.set (0 : Lane) x := by
  refine (perLane_eq_ofFn fun j => ?_).symm
  by_cases hj : j = 0
  · subst hj; simp [LaneCount.lanes]
  · have hne : 0 ≠ j.val := fun e => hj (Fin.ext e.symm)
    simp [LaneCount.lanes, hne, hj]

/-- Constructing the streams of a call whose descriptors are all written (R13, R172). -/
theorem constructStreams_of_described {k : LaneCount} {s : State} {d : Lane → BitVec 64}
    (h : ∀ i : Lane, i.val < k.lanes → s.srcDesc[i] = some (d i)) :
    constructStreams k.laneList s = { s with
      sc := Vector.ofFn fun i : Lane => if i.val < k.lanes then some (streamAtConstruction (d i)) else s.sc[i]
      newDone := Vector.ofFn fun i : Lane => if i.val < k.lanes then some false else s.newDone[i]
      blk := Vector.ofFn fun i : Lane => if i.val < k.lanes then none else s.blk[i]
      dig := Vector.ofFn fun i : Lane => if i.val < k.lanes then none else s.dig[i] } := by
  obtain ⟨heq, hsc, hnew, hblk, hdig⟩ := constructStreams_effect k.laneList s
  rw [heq]
  congr 1
  all_goals
    refine perLane_eq_ofFn fun j => ?_
    simp only [hsc, hnew, hblk, hdig, mem_laneList]
    split
    · simp [h j ‹_›, newStream_eq_streamAtConstruction]
    · rfl

/-! ### Accept without an error -/

/-- The checks of `HASHPAR` pass when the capability of its width and the little-endian host are there (R202, R203). -/
theorem precondition_hashpar_eq_none {a : Alg} {k : LaneCount} {p : Params}
    (hcap : vectorBits a k = 128 ∧ p.cap128 = true ∨ vectorBits a k = 256 ∧ p.cap256 = true) (hle : p.hostLe = true) :
    precondition .hashpar a k p = none := by
  rcases hcap with ⟨hbits, hcap⟩ | ⟨hbits, hcap⟩ <;> simp [precondition, parallelCheck, hbits, hcap, hle]

/-- Accept of a legal command whose checks all pass: its whole next state (R171, R172). -/
theorem acceptCommand_of_fine {op : Op} {a : Alg} {k : LaneCount} {s : State} {d : Lane → BitVec 64}
    (hb : s.busy = false) (hform : formOk op a k 0 = true) (hpre : precondition op a k s.params = none)
    (hd : ∀ i : Lane, i.val < k.lanes → s.srcDesc[i] = some (d i) ∧ descriptorOk (d i)) :
    acceptCommand op a k s = .next { s with
      status := 0x0001
      out := Vector.replicate 8 none
      outLen := none
      ctx := some ⟨a, k⟩
      sc := Vector.ofFn fun i : Lane => if i.val < k.lanes then some (streamAtConstruction (d i)) else s.sc[i]
      newDone := Vector.ofFn fun i : Lane => if i.val < k.lanes then some false else s.newDone[i]
      blk := Vector.ofFn fun i : Lane => if i.val < k.lanes then none else s.blk[i]
      w := none
      lw := none
      ls := none
      dig := Vector.ofFn fun i : Lane => if i.val < k.lanes then none else s.dig[i]
      seq := ⟨firstPhase op, 0⟩ } := by
  have hcheck : checkDescriptors { s.beginCommand with ctx := some ⟨a, k⟩ } k.laneList = .allFine :=
    checkDescriptors_of_described fun i hi =>
      have ⟨hdi, hok⟩ := hd i (mem_laneList.1 hi)
      ⟨d i, hdi, descTooLong_of_descriptorOk hok⟩
  have hstreams := constructStreams_of_described (s := { s.beginCommand with ctx := some ⟨a, k⟩ }.dropShared)
    fun i hi => (hd i hi).1
  simp only [acceptCommand, hb, hform, hpre, hcheck, hstreams, Bool.false_eq_true, not_true_eq_false, if_false]
  rfl

/-- Settles O17, from the general accept at K = 1. -/
theorem hashAccepts : Obligations.HashAccepts := by
  intro a s d hb hd hok
  have hlane (i : Lane) (hi : i.val < LaneCount.k1.lanes) : s.srcDesc[i] = some d ∧ descriptorOk d := by
    obtain rfl : i = 0 := by simpa [LaneCount.laneList] using mem_laneList.2 hi
    exact ⟨hd, hok⟩
  rw [exec_hash, acceptHash, acceptCommand_of_fine (d := fun _ => d) hb rfl rfl hlane]
  simp only [ofFn_k1_eq_set]
  rfl

/-- Settles O18, from the general accept at a legal lane count. -/
theorem hashparAccepts : Obligations.HashparAccepts := by
  intro a k s d hb hcap hle hd
  have hlegal : laneCountLegal a k = true := by
    rcases hcap with ⟨hbits, -⟩ | ⟨hbits, -⟩ <;> simp [laneCountLegal, vectorBits, hbits]
  have hform : formOk .hashpar a k 0 = true := by simp [formOk, laneCountOk, laneOk, hlegal]
  rw [exec_hashpar, acceptHashpar, acceptCommand_of_fine hb hform (precondition_hashpar_eq_none hcap hle) hd]
  rfl

end Sys2Proof.Machine

/-! PROOF. What no step changes: the parameters and, while the core moves, the host's inputs (00_scope rule R15,
10_state rules R38 to R40, R50). -/

namespace Sys2Proof.Machine

/-- `t` has the parameters and the host's inputs of `s`: the sources, the descriptors, `CMD` and the model's own host
fields. -/
def SameInputs (s t : State) : Prop :=
  t.params = s.params ∧ t.src = s.src ∧ t.srcDesc = s.srcDesc ∧ t.cmd = s.cmd ∧ t.host = s.host ∧
    t.hostData = s.hostData ∧ t.issue = s.issue

theorem SameInputs.refl (s : State) : SameInputs s s := ⟨rfl, rfl, rfl, rfl, rfl, rfl, rfl⟩

theorem SameInputs.trans {s t u : State} (h : SameInputs s t) (h' : SameInputs t u) : SameInputs s u := by
  simp_all [SameInputs]

theorem SameInputs.params_eq {s t : State} (h : SameInputs s t) : t.params = s.params := h.1

/-! ### The instructions -/

theorem sameInputs_constructStreams (l : List Lane) (s : State) : SameInputs s (constructStreams l s) := by
  rw [(constructStreams_effect l s).1]
  exact SameInputs.refl s

/-- Accept changes no input, whatever it answers (R171). -/
theorem acceptCommand_sameInputs {op : Op} {a : Alg} {k : LaneCount} {s t : State}
    (h : acceptCommand op a k s = .next t) : SameInputs s t := by
  unfold acceptCommand at h
  split at h
  · cases h
  · split at h
    · cases h; exact SameInputs.refl s
    · dsimp only at h
      split at h
      · cases h; exact SameInputs.refl s
      · split at h
        · cases h
        · cases h; exact SameInputs.refl s
        · cases h; exact sameInputs_constructStreams k.laneList { s.beginCommand with ctx := some ⟨a, k⟩ }.dropShared

/-- No instruction changes an input. -/
theorem exec_sameInputs {j : Instr} {s t : State} (h : exec j s = .next t) : SameInputs s t := by
  rw [exec_eq_ofFields] at h
  cases hop : j.fields.op.isCommand
  · obtain ⟨e, rfl⟩ | ⟨hsrc, -, -, hparams, hdesc, hcmd, hhost, hdata, hissue, -⟩ := micro_effect hop h
    · exact SameInputs.refl s
    · exact ⟨hparams, hsrc, hdesc, hcmd, hhost, hdata, hissue⟩
  · revert h hop
    cases j.fields.op <;> intro h hop
    case hash => exact acceptCommand_sameInputs (exec_hash .. ▸ h)
    case hashpar => exact acceptCommand_sameInputs (exec_hashpar .. ▸ h)
    all_goals cases hop

theorem issueWord_sameInputs {w : BitVec 16} {s t : State} (h : issueWord w s = .next t) : SameInputs s t := by
  unfold issueWord at h
  split at h
  · cases h
  · split at h
    · cases h
    · exact exec_sameInputs h

/-! ### The core -/

theorem SeqRow.enter_sameInputs (r : SeqRow) (s : State) : SameInputs s (r.enter s) := by
  unfold SeqRow.enter
  split <;> exact SameInputs.refl s

theorem SeqRow.leave_sameInputs (r : SeqRow) (a : Alg) (s : State) : SameInputs s (r.leave a s) := by
  unfold SeqRow.leave
  split <;> exact SameInputs.refl s

theorem takeRow_sameInputs {c : CommandContext} {r : SeqRow} {s t : State} (h : takeRow c r s = .next t) :
    SameInputs s t := by
  unfold takeRow at h
  split at h
  · cases h
    exact (r.enter_sameInputs s).trans (r.leave_sameInputs ..)
  · obtain ⟨u, hu, hleave⟩ := andThen_eq_next.1 h
    cases hleave
    exact ((r.enter_sameInputs s).trans (issueWord_sameInputs hu)).trans (r.leave_sameInputs ..)

/-- No step of the core changes an input (R59). -/
theorem coreStep_sameInputs {s t : State} (h : coreStep s = .next t) : SameInputs s t := by
  unfold coreStep at h
  split at h
  · cases h; exact SameInputs.refl s
  · obtain ⟨c, -, h⟩ := withValue_eq_next.1 h
    split at h
    · cases h
    · exact takeRow_sameInputs h

/-! ### The host's moves -/

theorem writeCommand_params {w : BitVec 16} {s t : State} (h : writeCommand w s = .next t) : t.params = s.params := by
  unfold writeCommand at h
  split at h
  · cases h
  · dsimp only at h
    split at h
    · cases h; rfl
    · split at h
      · exact (exec_sameInputs h).params_eq
      · cases h; rfl

/-- A write of `CAP` is ignored, and no other register holds a parameter (R38, R40). -/
theorem writeRegister_params {n : Nat} {v : BitVec 64} {s t : State} (h : writeRegister n v s = .next t) :
    t.params = s.params := by
  unfold writeRegister at h
  split at h
  · exact writeCommand_params h
  · split at h
    · cases h
    · split at h
      · cases (whenNotBusy_eq_next.1 h).2; rfl
      · split at h
        · cases (whenNotBusy_eq_next.1 h).2; rfl
        · cases h

/-- A read that answers only puts a value in the host's hand (R58). -/
theorem eq_of_withValue_give {n : Nat} {e : Element} {v : Option (BitVec n)} {s t : State}
    (h : withValue e v (fun x => .next (s.give x)) = .next t) : t = { s with hostData := t.hostData } := by
  obtain ⟨x, -, h⟩ := withValue_eq_next.1 h
  cases h; rfl

theorem readRegister_eq {n : Nat} {s t : State} (h : readRegister n s = .next t) :
    t = { s with hostData := t.hostData } := by
  unfold readRegister at h
  split at h
  · cases h; rfl
  · split at h
    · exact eq_of_withValue_give (whenNotBusy_eq_next.1 h).2
    · split at h
      · cases (whenNotBusy_eq_next.1 h).2; rfl
      · split at h
        · exact eq_of_withValue_give h
        · split at h
          · exact eq_of_withValue_give (whenNotBusy_eq_next.1 h).2
          · cases h

theorem writeSourceByte_params {i : Lane} {p : Nat} {b : Byte} {s t : State} (h : writeSourceByte i p b s = .next t) :
    t.params = s.params := by
  obtain ⟨-, h⟩ := whenNotBusy_eq_next.1 h
  split at h <;> cases h
  rfl

/-- No move of the host changes the parameters; a reset keeps them too (R220; log entry 11). -/
theorem hostStep_params {m : HostMove} {rest : List HostMove} {s t : State} (h : hostStep m rest s = .next t) :
    t.params = s.params := by
  cases m with
  | writeReg n v => exact (writeRegister_params h).trans rfl
  | readReg n => exact (congrArg State.params (readRegister_eq h)).trans rfl
  | writeSource i p b => exact (writeSourceByte_params h).trans rfl
  | readOut i p => exact (congrArg State.params (eq_of_withValue_give h)).trans rfl
  | reset => cases h; rfl
  | pass => exact (coreStep_sameInputs h).params_eq
  | await =>
    unfold hostStep at h
    dsimp only at h
    split at h
    · cases h; rfl
    · exact (coreStep_sameInputs h).params_eq

theorem step_params {s t : State} (h : step s = .next t) : t.params = s.params := by
  unfold step at h
  split at h
  · exact (issueWord_sameInputs h).params_eq
  · split at h
    · exact hostStep_params h
    · exact (coreStep_sameInputs h).params_eq

/-- Settles O53, from what each mover of a step keeps. -/
theorem inputsAreConstant : Obligations.InputsAreConstant :=
  ⟨fun _ _ => step_params, fun _ _ h => (coreStep_sameInputs h).2⟩

end Sys2Proof.Machine

/-! PROOF. What one step of each mover does, said once: the word issued, the row taken, the core's step, the accept
(30_encoding rules R76, R78, R81; 44_orchestrator rules R171, R182 to R184). -/

namespace Sys2Proof

/-! ### The words the sequencer issues -/

@[simp] theorem opOfField_code (op : Op) : opOfField op.code = some op := by cases op <;> rfl

@[simp] theorem algOfField_code (a : Alg) : algOfField a.code = some a := by cases a <;> rfl

@[simp] theorem laneCountOfField_code (k : LaneCount) : laneCountOfField k.code = k := by cases k <;> rfl

@[simp] theorem laneOfField_ofNat (i : Lane) : laneOfField (BitVec.ofNat 3 i.val) = i :=
  Fin.ext (by simp [laneOfField])

/-- The word built from four fields decodes exactly when they keep their row of R76, and then to their instruction. -/
theorem decode_wordOfFields_eq_ok {op : Op} {a : Alg} {k : LaneCount} {i : Lane} {j : Instr} :
    decode (wordOfFields op a k i) = .ok j ↔ formOk op a k i = true ∧ j = .ofFields op a k i := by
  obtain ⟨hzero, hop, halg, hk, hlane⟩ := fields_wordOfFields op a k i
  simp only [decode, hzero, hop, halg, hk, hlane, opOfField_code, algOfField_code, laneCountOfField_code,
    laneOfField_ofNat, formOk, Bool.and_eq_true]
  cases laneCountOk op a k <;> cases laneOk op k i <;> simp [eq_comm]

end Sys2Proof

namespace Sys2Proof.Machine

/-- Reading an element per lane after a write of one lane. -/
theorem perLane_getElem_set {α : Type} (v : PerLane α) (i j : Lane) (x : α) :
    (v.set i x)[j] = if j = i then x else v[j] := by
  by_cases h : j = i
  · subst h; simp
  · have hne : i.val ≠ j.val := fun e => h (Fin.ext e.symm)
    simp [h, hne]

/-- A word at the issue point that answers is a micro-operation's (R78, R81). -/
theorem issueWord_eq_next {w : BitVec 16} {s t : State} :
    issueWord w s = .next t ↔ ∃ j, decode w = .ok j ∧ j.isCommand = false ∧ exec j s = .next t := by
  unfold issueWord
  split
  · simp [*]
  · split <;> simp_all

/-- The word a row issues runs its own micro-operation (R81). -/
theorem issueWord_wordOfFields_eq_next {op : Op} {a : Alg} {k : LaneCount} {i : Lane} {s t : State} :
    issueWord (wordOfFields op a k i) s = .next t ↔
      formOk op a k i = true ∧ op.isCommand = false ∧ exec (.ofFields op a k i) s = .next t := by
  simp [issueWord_eq_next, decode_wordOfFields_eq_ok, and_assoc]

/-! ### The sequencer -/

/-- Everything taking a row can do: its move alone, or its move and its micro-operation (R182). -/
theorem takeRow_cases {c : CommandContext} {r : SeqRow} {s t : State} (h : takeRow c r s = .next t) :
    (r.micro = none ∧ t = r.leave c.alg (r.enter s)) ∨
      ∃ op i u, r.micro = some (op, i) ∧ op.isCommand = false ∧
        exec (.ofFields op c.alg c.k i) (r.enter s) = .next u ∧ t = r.leave c.alg u := by
  cases hm : r.micro with
  | none => exact .inl ⟨rfl, by simpa [takeRow_none hm, eq_comm] using h⟩
  | some m =>
    obtain ⟨op, i⟩ := m
    simp only [takeRow, SeqRow.word, hm, Option.map_some, andThen_eq_next, issueWord_wordOfFields_eq_next] at h
    obtain ⟨u, ⟨-, hop, hu⟩, ht⟩ := h
    exact .inr ⟨op, i, u, rfl, hop, hu, by simpa [eq_comm] using ht⟩

/-- Everything a step of the core can do: nothing in a terminal phase, else the row of the phase (R182). -/
theorem coreStep_cases {s t : State} (h : coreStep s = .next t) :
    (s.seq.phase.terminal = true ∧ t = s) ∨
      ∃ c r, s.seq.phase.terminal = false ∧ s.ctx = some c ∧ seqRow c.k s = .ok r ∧ takeRow c r s = .next t := by
  unfold coreStep at h
  split at h
  · cases h; exact .inl ⟨‹_›, rfl⟩
  · rename_i hterm
    obtain ⟨c, hc, h⟩ := withValue_eq_next.1 h
    split at h
    · cases h
    · exact .inr ⟨c, _, by simpa using hterm, hc, ‹_›, h⟩

/-- A row that goes on: its next phase has a row too, at a lane index of R22. -/
def SeqRow.GoesOn (r : SeqRow) : Prop := r.finish = false ∧ r.next.phase.terminal = false ∧ r.next.lane ≤ 8

/-- A row that ends the command, after at most a `FINAL` (R183, R184). -/
def SeqRow.Ends (r : SeqRow) : Prop :=
  r.finish = true ∧ r.next = ⟨.done, 0⟩ ∧ ∀ op i, r.micro = some (op, i) → op = .final

/-- What is chosen, if a row is, goes on or ends the command. -/
def RowFits (e : Except Fault SeqRow) : Prop := ∀ r, e = .ok r → r.GoesOn ∨ r.Ends

theorem rowFits_error (e : Fault) : RowFits (.error e) := by simp [RowFits]

theorem rowFits_of_goesOn {r : SeqRow} (h : r.GoesOn) : RowFits (.ok r) := by simp [RowFits, h]

theorem rowFits_of_ends {r : SeqRow} (h : r.Ends) : RowFits (.ok r) := by simp [RowFits, h]

theorem rowFits_byPhase {s : State} {i : Lane} {r r' : SeqRow} (hr : r.GoesOn) (hr' : r'.GoesOn) :
    RowFits (byPhase s i r r') := by
  unfold byPhase
  split
  · exact rowFits_error _
  · split
    · exact rowFits_of_goesOn hr
    · exact rowFits_of_goesOn hr'

theorem rowFits_byLane {k : LaneCount} {n : Nat} {e : Except Fault SeqRow} {f : Lane → Except Fault SeqRow}
    (he : RowFits e) (hf : ∀ i, n < 8 → RowFits (f i)) : RowFits (byLane k n e f) := by
  unfold byLane
  split
  · exact he
  · rename_i i hi
    exact hf i ((laneAt_eq_some hi).1 ▸ i.isLt)

/-- Every row of the tables goes on or ends the command (R183, R184). -/
theorem rowFits_seqRow (k : LaneCount) (s : State) : RowFits (seqRow k s) := by
  unfold seqRow
  dsimp only
  cases s.seq.phase with
  | idle => exact rowFits_error _
  | done => exact rowFits_error _
  | failed => exact rowFits_error _
  | sInit => exact rowFits_of_goesOn ⟨rfl, rfl, Nat.zero_le 8⟩
  | sTest => exact rowFits_byPhase ⟨rfl, rfl, Nat.zero_le 8⟩ ⟨rfl, rfl, Nat.zero_le 8⟩
  | sSched => exact rowFits_of_goesOn ⟨rfl, rfl, Nat.zero_le 8⟩
  | sComp => exact rowFits_of_goesOn ⟨rfl, rfl, Nat.zero_le 8⟩
  | sFinal => exact rowFits_of_ends ⟨rfl, rfl, fun op i h => by cases h; rfl⟩
  | pInit => exact rowFits_of_goesOn ⟨rfl, rfl, Nat.zero_le 8⟩
  | pPrep =>
    exact rowFits_byLane (rowFits_of_goesOn ⟨rfl, rfl, Nat.zero_le 8⟩) fun i hn =>
      rowFits_byPhase ⟨rfl, rfl, hn⟩ ⟨rfl, rfl, hn⟩
  | pPack => exact rowFits_of_goesOn ⟨rfl, rfl, Nat.zero_le 8⟩
  | pCompl => exact rowFits_of_goesOn ⟨rfl, rfl, Nat.zero_le 8⟩
  | pSnap =>
    refine rowFits_byLane (rowFits_of_goesOn ⟨rfl, rfl, Nat.zero_le 8⟩) fun i hn => ?_
    split
    · exact rowFits_error _
    · exact rowFits_of_goesOn ⟨rfl, rfl, hn⟩
    · exact rowFits_of_goesOn ⟨rfl, rfl, hn⟩
  | pTest =>
    dsimp only
    split
    · exact rowFits_error _
    · split <;> exact rowFits_of_goesOn ⟨rfl, rfl, Nat.zero_le 8⟩
  | dNext =>
    exact rowFits_byLane (rowFits_of_goesOn ⟨rfl, rfl, Nat.zero_le 8⟩) fun i hn =>
      rowFits_byPhase ⟨rfl, rfl, hn⟩ ⟨rfl, rfl, hn.le⟩
  | dTest =>
    exact rowFits_byLane (rowFits_error _) fun i hn => rowFits_byPhase ⟨rfl, rfl, hn⟩ ⟨rfl, rfl, hn.le⟩
  | dSched => exact rowFits_byLane (rowFits_error _) fun i hn => rowFits_of_goesOn ⟨rfl, rfl, hn.le⟩
  | dComp => exact rowFits_byLane (rowFits_error _) fun i hn => rowFits_of_goesOn ⟨rfl, rfl, hn.le⟩
  | fFinal =>
    exact rowFits_byLane (rowFits_of_ends ⟨rfl, rfl, fun op i h => by cases h⟩) fun i hn =>
      rowFits_of_goesOn ⟨rfl, rfl, hn⟩

theorem SeqRow.GoesOn.leave_eq {r : SeqRow} (h : r.GoesOn) (a : Alg) (s : State) : r.leave a s = s := by
  simp [SeqRow.leave, h.1]

theorem SeqRow.Ends.leave_eq {r : SeqRow} (h : r.Ends) (a : Alg) (s : State) : r.leave a s = s.complete a := by
  simp [SeqRow.leave, h.1]

/-- What entering a row changes is `SEQ` and `NEWDONE` (R184). -/
theorem SeqRow.enter_eq (r : SeqRow) (s : State) :
    r.enter s = { s with seq := r.next, newDone := (r.enter s).newDone } := by
  unfold SeqRow.enter
  split <;> rfl

@[simp] theorem SeqRow.enter_seq (r : SeqRow) (s : State) : (r.enter s).seq = r.next := by rw [enter_eq]

@[simp] theorem SeqRow.enter_status (r : SeqRow) (s : State) : (r.enter s).status = s.status := by rw [enter_eq]

@[simp] theorem SeqRow.enter_ctx (r : SeqRow) (s : State) : (r.enter s).ctx = s.ctx := by rw [enter_eq]

@[simp] theorem SeqRow.enter_sc (r : SeqRow) (s : State) : (r.enter s).sc = s.sc := by rw [enter_eq]

@[simp] theorem SeqRow.enter_src (r : SeqRow) (s : State) : (r.enter s).src = s.src := by rw [enter_eq]

/-- `FINAL` writes `OUT[i]` and nothing else (R195). -/
theorem final_cases {a : Alg} {k : LaneCount} {i : Lane} {s t : State} (h : exec (.ofFields .final a k i) s = .next t) :
    ∃ bs, t = { s with out := s.out.set i (some bs) } := by
  rw [exec_final, finalizeDigest, microOperation_eq_next, withDigest, withValue_eq_next] at h
  obtain ⟨-, x, -, h⟩ := h
  exact ⟨digestOfState a x, by simpa [eq_comm] using h⟩

/-! ### Accept -/

/-- A host command is the accept of its operation, algorithm and lane count (R173, R174). -/
theorem exec_of_isCommand {j : Instr} (hj : j.isCommand = true) (s : State) :
    exec j s = acceptCommand j.fields.op j.fields.alg j.fields.k s := by
  cases j <;> cases hj <;> rfl

/-- Everything an accept can do: an error that leaves the sources and the streams, or the start of the command with
its streams constructed from written descriptors of legal length (R171). -/
theorem acceptCommand_cases {op : Op} {a : Alg} {k : LaneCount} {s t : State} (h : acceptCommand op a k s = .next t) :
    (∃ e u, t = State.raise e u ∧ u.src = s.src ∧ u.sc = s.sc) ∨
      (formOk op a k 0 = true ∧
        (∀ i : Lane, i.val < k.lanes → ∃ d, s.srcDesc[i] = some d ∧ descTooLong d = false) ∧
        t = (constructStreams k.laneList (State.dropShared { s.beginCommand with ctx := some ⟨a, k⟩ })).setSeq
          ⟨firstPhase op, 0⟩) := by
  unfold acceptCommand at h
  split at h
  · cases h
  · split at h
    · cases h; exact .inl ⟨_, _, rfl, rfl, rfl⟩
    · rename_i hform
      dsimp only at h
      split at h
      · cases h; exact .inl ⟨_, _, rfl, rfl, rfl⟩
      · split at h
        · cases h
        · cases h; exact .inl ⟨_, _, rfl, rfl, rfl⟩
        · rename_i hfine
          cases h
          exact .inr ⟨by simpa using hform, fun i hi => checkDescriptors_allFine hfine i (mem_laneList.2 hi), rfl⟩

/-- The streams of a call whose descriptors are written, after their construction (R172). -/
theorem constructStreams_sc_of_lane {k : LaneCount} {s : State} {i : Lane} {d : BitVec 64} (hi : i.val < k.lanes)
    (hd : s.srcDesc[i] = some d) : (constructStreams k.laneList s).sc[i] = some (newStream d) := by
  rw [(constructStreams_effect k.laneList s).2.1 i]
  simp [mem_laneList, hi, hd]

/-- The length field of a descriptor has 61 bits (R39). -/
theorem descLength_le (d : BitVec 64) : (descLength d).toNat ≤ maxLen := by
  unfold descLength maxLen
  split
  · have h : (d.extractLsb' 0 61).toNat < 2 ^ 61 := (d.extractLsb' 0 61).isLt
    rw [BitVec.toNat_setWidth]
    omega
  · decide

/-- A stream is constructed within its bounds (R25, R172). -/
theorem newStream_ok (d : BitVec 64) : (newStream d).Ok :=
  ⟨descLength_le d, rfl, Nat.zero_le _, fun h => by cases h⟩

end Sys2Proof.Machine

/-! PROOF. The invariant of the state (10_state rules R21, R22, R25). -/

namespace Sys2Proof.Machine

/-! ### Streams and `STATUS` -/

/-- Every StreamContext there is is within its bounds: the last part of the invariant. -/
def StreamsOk (sc : PerLane (Option StreamContext)) : Prop := ∀ (i : Lane) (c : StreamContext), sc[i] = some c → c.Ok

theorem StreamsOk.set {sc : PerLane (Option StreamContext)} (h : StreamsOk sc) (i : Lane) {c : StreamContext}
    (hc : c.Ok) : StreamsOk (sc.set i (some c)) := by
  intro j c' hj
  rw [perLane_getElem_set] at hj
  split at hj
  · cases hj; exact hc
  · exact h j c' hj

theorem StreamsOk.constructStreams {s : State} (h : StreamsOk s.sc) (l : List Lane) :
    StreamsOk (constructStreams l s).sc := by
  intro i c hi
  rw [(constructStreams_effect l s).2.1 i] at hi
  split at hi
  · split at hi
    · exact h i c hi
    · obtain ⟨d, -, rfl⟩ := Option.map_eq_some_iff.1 hi
      exact newStream_ok d
  · exact h i c hi

/-- `STATUS` is `BUSY` exactly in the phases that have a row (R182). -/
theorem statusOk_of_not_terminal {s : State} (h : s.seq.phase.terminal = false) :
    s.StatusOk ↔ s.status = statusWord .busy 0 0 := by
  unfold State.StatusOk
  cases hp : s.seq.phase <;> simp_all [SeqPhase.terminal]

theorem statusOk_raise (e : CoreError) (s : State) : (s.raise e).StatusOk := ⟨e, rfl⟩

/-! ### How the invariant is reached -/

/-- An error leaves the invariant, whatever `STATUS` and `SEQ` were (R207). -/
theorem inv_raise {s : State} (hsrc : s.src.wf = true) (hsc : StreamsOk s.sc) (e : CoreError) : (s.raise e).Inv :=
  ⟨hsrc, statusOk_raise e s, Nat.zero_le 8, hsc⟩

theorem inv_raiseInternal {s : State} (hsrc : s.src.wf = true) (hsc : StreamsOk s.sc) (e : CoreError) :
    (s.raiseInternal e).Inv := inv_raise hsrc hsc e

/-- A command's end leaves the invariant (R185). -/
theorem inv_complete {s : State} (hsrc : s.src.wf = true) (hsc : StreamsOk s.sc) (hseq : s.seq = ⟨.done, 0⟩) (a : Alg) :
    (s.complete a).Inv := by
  refine ⟨hsrc, ?_, by simp [hseq], hsc⟩
  simp [State.StatusOk, hseq]

/-- Entering a row that goes on keeps the invariant. -/
theorem inv_enter {s : State} {r : SeqRow} (h : s.Inv) (hs : s.seq.phase.terminal = false) (hr : r.GoesOn) :
    (r.enter s).Inv := by
  obtain ⟨hsrc, hstatus, -, hsc⟩ := h
  obtain ⟨-, hnext, hlane⟩ := hr
  refine ⟨by simpa using hsrc, ?_, by simpa using hlane, by simpa using hsc⟩
  rw [statusOk_of_not_terminal (by simpa using hnext), r.enter_status]
  exact (statusOk_of_not_terminal hs).1 hstatus

/-! ### Every step keeps it -/

/-- Every micro-operation keeps the invariant, `PREP` by `frameBlock_ok`. -/
theorem inv_micro {op : Op} {a : Alg} {k : LaneCount} {i : Lane} {s t : State} (hop : op.isCommand = false)
    (h : s.Inv) (ht : exec (.ofFields op a k i) s = .next t) : t.Inv := by
  obtain ⟨hsrc, hstatus, hlane, hsc⟩ := h
  obtain ⟨e, rfl⟩ | ⟨hsrc', hstatus', hseq', -, -, -, -, -, -, -, hsc'⟩ := micro_effect hop ht
  · exact inv_raiseInternal hsrc hsc e
  · refine ⟨hsrc' ▸ hsrc, by simpa only [State.StatusOk, hstatus', hseq'] using hstatus, hseq' ▸ hlane, ?_⟩
    obtain hsc' | ⟨c, b, c', -, hc, -, hframe, hsc'⟩ := hsc'
    · exact hsc' ▸ hsc
    · rw [hsc']
      exact StreamsOk.set hsc i (frameBlock_ok (hsc i c hc) hframe).1

theorem inv_acceptCommand {op : Op} {a : Alg} {k : LaneCount} {s t : State} (h : s.Inv)
    (ht : acceptCommand op a k s = .next t) : t.Inv := by
  obtain ⟨hsrc, -, -, hsc⟩ := h
  obtain ⟨e, u, rfl, husrc, husc⟩ | ⟨-, -, rfl⟩ := acceptCommand_cases ht
  · exact inv_raise (husrc ▸ hsrc) (husc ▸ hsc) e
  · have hstart : StreamsOk (State.dropShared { s.beginCommand with ctx := some ⟨a, k⟩ }).sc := hsc
    refine ⟨?_, ?_, Nat.zero_le 8, hstart.constructStreams k.laneList⟩
    · rw [State.setSeq_src, (sameInputs_constructStreams ..).2.1]; exact hsrc
    · rw [statusOk_of_not_terminal (by cases op <;> rfl), State.setSeq_status, (constructStreams_effect ..).1]
      rfl

/-- Every instruction keeps the invariant. -/
theorem inv_exec {j : Instr} {s t : State} (h : s.Inv) (ht : exec j s = .next t) : t.Inv := by
  cases hj : j.isCommand
  · rw [exec_eq_ofFields] at ht
    exact inv_micro hj h ht
  · rw [exec_of_isCommand hj] at ht
    exact inv_acceptCommand h ht

/-- The row that ends a command: after nothing or a `FINAL`, the completion (R185). -/
theorem inv_takeRow_of_ends {c : CommandContext} {r : SeqRow} {s t : State} (h : s.Inv) (hr : r.Ends)
    (ht : takeRow c r s = .next t) : t.Inv := by
  have ⟨_, hnext, hfinal⟩ := hr
  obtain ⟨hsrc, -, -, hsc⟩ := h
  rw [← r.enter_src] at hsrc
  have hsc : StreamsOk (r.enter s).sc := by rw [r.enter_sc]; exact hsc
  have hseq : (r.enter s).seq = ⟨.done, 0⟩ := by rw [r.enter_seq, hnext]
  obtain ⟨-, rfl⟩ | ⟨op, i, u, hm, -, hu, rfl⟩ := takeRow_cases ht <;> rw [hr.leave_eq]
  · exact inv_complete hsrc hsc hseq c.alg
  · obtain rfl := hfinal op i hm
    obtain ⟨bs, rfl⟩ := final_cases hu
    exact inv_complete hsrc hsc hseq c.alg

theorem inv_takeRow_of_goesOn {c : CommandContext} {r : SeqRow} {s t : State} (h : s.Inv)
    (hs : s.seq.phase.terminal = false) (hr : r.GoesOn) (ht : takeRow c r s = .next t) : t.Inv := by
  obtain ⟨-, rfl⟩ | ⟨op, i, u, -, hop, hu, rfl⟩ := takeRow_cases ht <;> rw [hr.leave_eq]
  · exact inv_enter h hs hr
  · exact inv_micro hop (inv_enter h hs hr) hu

theorem inv_coreStep {s t : State} (h : s.Inv) (ht : coreStep s = .next t) : t.Inv := by
  obtain ⟨-, rfl⟩ | ⟨c, r, hs, -, hrow, htake⟩ := coreStep_cases ht
  · exact h
  · obtain hr | hr := rowFits_seqRow c.k s r hrow
    · exact inv_takeRow_of_goesOn h hs hr htake
    · exact inv_takeRow_of_ends h hr htake

theorem inv_writeCommand {w : BitVec 16} {s t : State} (h : s.Inv) (ht : writeCommand w s = .next t) : t.Inv := by
  have hcmd : { s with cmd := some w }.Inv := h
  have hreject : (rejectCommand { s with cmd := some w }).Inv :=
    have ⟨hsrc, _, _, hsc⟩ := h
    inv_raise hsrc hsc _
  unfold writeCommand at ht
  split at ht
  · cases ht
  · dsimp only at ht
    split at ht
    · cases ht; exact hreject
    · split at ht
      · exact inv_exec hcmd ht
      · cases ht; exact hreject

theorem inv_writeRegister {n : Nat} {v : BitVec 64} {s t : State} (h : s.Inv) (ht : writeRegister n v s = .next t) :
    t.Inv := by
  unfold writeRegister at ht
  split at ht
  · exact inv_writeCommand h ht
  · split at ht
    · cases ht
    · split at ht
      · cases (whenNotBusy_eq_next.1 ht).2; exact h
      · split at ht
        · cases (whenNotBusy_eq_next.1 ht).2; exact h
        · cases ht

theorem inv_writeSourceByte {i : Lane} {p : Nat} {b : Byte} {s t : State} (h : s.Inv)
    (ht : writeSourceByte i p b s = .next t) : t.Inv := by
  obtain ⟨-, ht⟩ := whenNotBusy_eq_next.1 ht
  split at ht <;> cases ht
  exact ⟨wf_writeByte h.1 .., h.2⟩

/-- The invariant holds after reset with any sources in canonical form (R45; log entry 11). -/
theorem inv_applyReset {s : State} (h : s.src.wf = true) : s.applyReset.Inv := by
  refine ⟨h, (by decide : (0x0000 : BitVec 16) = statusWord .idle 0 0), Nat.zero_le 8, fun i c hi => ?_⟩
  simp [State.resetWith] at hi

theorem inv_hostStep {m : HostMove} {rest : List HostMove} {s t : State} (h : s.Inv)
    (ht : hostStep m rest s = .next t) : t.Inv := by
  have hrest : { s with host := rest }.Inv := h
  cases m with
  | writeReg n v => exact inv_writeRegister hrest ht
  | readReg n => rw [readRegister_eq ht]; exact hrest
  | writeSource i p b => exact inv_writeSourceByte hrest ht
  | readOut i p => rw [eq_of_withValue_give ht]; exact hrest
  | reset => cases ht; exact inv_applyReset h.1
  | pass => exact inv_coreStep hrest ht
  | await =>
    unfold hostStep at ht
    dsimp only at ht
    split at ht
    · cases ht; exact hrest
    · exact inv_coreStep h ht

/-- Settles O51, mover by mover: the word at the issue point, the host, the core. -/
theorem stepKeepsInvariant : Obligations.StepKeepsInvariant := by
  intro s t h ht
  unfold step at ht
  split at ht
  · obtain ⟨j, -, -, hj⟩ := issueWord_eq_next.1 ht
    exact inv_exec (s := { s with issue := none }) h hj
  · split at ht
    · exact inv_hostStep h ht
    · exact inv_coreStep h ht

/-- Settles O52. -/
theorem resetHasInvariant : Obligations.ResetHasInvariant := by
  have h (p : Params) : (State.resetWith p).Inv := inv_applyReset (s := State.resetWith p) rfl
  exact ⟨h, h Config.params⟩

end Sys2Proof.Machine

/-! PROOF. A running command (10_state rules R44, R224; 44_orchestrator rules R183, R184): each phase finds what it reads
and leaves what the next one reads. -/

namespace Sys2Proof.Machine

/-! ### Readiness after a write -/

/-- Writing `DIG[i]` with `NW` words makes lane `i` ready and leaves the others. -/
theorem digestReady_setDigest {a : Alg} {x : WordArray} (hx : (wordsOf a.width a.stateWords x).isSome = true) (s : State)
    (i j : Lane) : (s.setDigest i x).digestReady a j ↔ j = i ∨ s.digestReady a j := by
  unfold State.digestReady
  rw [State.setDigest_dig, perLane_getElem_set]
  split <;> simp [*]

/-- What `PREP i` leaves: its block, its context and its `NEWDONE` (R90, R101). -/
def State.afterPrep (i : Lane) (b : List Byte) (c : StreamContext) (s : State) : State :=
  { s with
    blk := s.blk.set i (some b)
    sc := s.sc.set i (some c)
    newDone := s.newDone.set i (some (c.ph == .done)) }

section AfterPrep

variable (s : State) (i j : Lane) (b : List Byte) (c : StreamContext)

@[simp] theorem afterPrep_seq : (s.afterPrep i b c).seq = s.seq := rfl

omit b in
theorem blockReady_afterPrep {a : Alg} {b : List Byte} (hb : b.length = a.blockBytes) :
    (s.afterPrep i b c).blockReady a j ↔ j = i ∨ s.blockReady a j := by
  unfold State.blockReady
  simp only [State.afterPrep, perLane_getElem_set]
  split <;> simp [*]

theorem streamDone_afterPrep : (s.afterPrep i b c).streamDone j ↔ if j = i then c.ph = .done else s.streamDone j := by
  unfold State.streamDone
  simp only [State.afterPrep, perLane_getElem_set]
  split <;> simp

theorem newDone_afterPrep :
    (s.afterPrep i b c).newDone[j] = if j = i then some (c.ph == .done) else s.newDone[j] := by
  simp only [State.afterPrep, perLane_getElem_set]

end AfterPrep

/-! ### A step that goes on -/

/-- A command of algorithm `a` and lane count `k` is running, its streams within their bounds: readiness without what the
phase asks for. -/
def State.Running (s : State) (a : Alg) (k : LaneCount) : Prop :=
  s.status = statusWord .busy 0 0 ∧ s.ctx = some ⟨a, k⟩ ∧
    ∀ i : Lane, i.val < k.lanes → ∃ c, s.sc[i] = some c ∧ c.Ok

theorem ready_iff {s : State} : s.Ready ↔ ∃ a k, s.Running a k ∧ s.phaseReady a k := by
  simp [State.Ready, State.Running, and_assoc]

/-- The core's next step answers, and the command is ready again or done. -/
def State.StepsOn (s : State) : Prop :=
  ∃ t, coreStep s = .next t ∧ (t.Ready ∨ t.status = 0x0002 ∧ t.seq = ⟨.done, 0⟩)

section Rows

variable {s t : State} {a : Alg} {k : LaneCount} {i : Lane} {r : SeqRow}

/-- `STATUS`, `CTX` and `SC` alone say that a command is running. -/
theorem State.Running.congr (h : s.Running a k) (hstatus : t.status = s.status) (hctx : t.ctx = s.ctx)
    (hsc : t.sc = s.sc) : t.Running a k := by
  simpa only [State.Running, hstatus, hctx, hsc] using h

theorem State.Running.enter (h : s.Running a k) (r : SeqRow) : (r.enter s).Running a k :=
  h.congr (r.enter_status s) (r.enter_ctx s) (r.enter_sc s)

theorem State.Running.afterPrep (h : s.Running a k) (b : List Byte) {c : StreamContext} (hc : c.Ok) :
    (s.afterPrep i b c).Running a k := by
  obtain ⟨hstatus, hctx, hsc⟩ := h
  refine ⟨hstatus, hctx, fun j hj => ?_⟩
  simp only [State.afterPrep, perLane_getElem_set]
  split
  · exact ⟨c, rfl, hc⟩
  · exact hsc j hj

theorem not_terminal_of_seqRow (h : seqRow k s = .ok r) : s.seq.phase.terminal = false := by
  unfold seqRow at h
  cases hp : s.seq.phase <;> simp_all [SeqPhase.terminal]

theorem coreStep_of_running (hrun : s.Running a k) (hrow : seqRow k s = .ok r) : coreStep s = takeRow ⟨a, k⟩ r s :=
  coreStep_of_row (not_terminal_of_seqRow hrow) hrun.2.1 hrow

/-- A row that only moves (R182). -/
theorem stepsOn_of_move (hrun : s.Running a k) (hrow : seqRow k s = .ok r) (hm : r.micro = none) (hf : r.finish = false)
    (hready : (r.enter s).phaseReady a k) : s.StepsOn := by
  refine ⟨r.enter s, ?_, .inl (ready_iff.2 ⟨a, k, hrun.enter r, hready⟩)⟩
  rw [coreStep_of_running hrun hrow, takeRow_none hm]
  simp [SeqRow.leave, hf]

/-- A row that issues a micro-operation, which answers (R81, R182). -/
theorem coreStep_of_micro {op : Op} (hrun : s.Running a k) (hrow : seqRow k s = .ok r) (hm : r.micro = some (op, i))
    (hop : op.isCommand = false) (hform : formOk op a k i = true)
    (hexec : exec (.ofFields op a k i) (r.enter s) = .next t) : coreStep s = .next (r.leave a t) := by
  rw [coreStep_of_running hrun hrow, takeRow_some hm (decode_wordOfFields_eq_ok.2 ⟨hform, rfl⟩) hop, hexec]
  rfl

/-- After a row that issues a micro-operation the command is ready again when its next phase is. -/
theorem stepsOn_of_micro {op : Op} (hrun : s.Running a k) (hrow : seqRow k s = .ok r) (hm : r.micro = some (op, i))
    (hop : op.isCommand = false) (hform : formOk op a k i = true) (hf : r.finish = false)
    (hexec : exec (.ofFields op a k i) (r.enter s) = .next t) (hrun' : t.Running a k) (hready : t.phaseReady a k) :
    s.StepsOn := by
  refine ⟨t, ?_, .inl (ready_iff.2 ⟨a, k, hrun', hready⟩)⟩
  rw [coreStep_of_micro hrun hrow hm hop hform hexec]
  simp [SeqRow.leave, hf]

/-- A row that issues `PREP i` for a stream that is not `Done`. -/
theorem stepsOn_of_prep {c : StreamContext} (hrun : s.Running a k) (hrow : seqRow k s = .ok r)
    (hm : r.micro = some (.prep, i)) (hform : formOk .prep a k i = true) (hf : r.finish = false)
    (hc : s.sc[i] = some c) (hok : c.Ok) (hn : c.ph ≠ .done)
    (hready : ∀ b c', b.length = a.blockBytes → ((r.enter s).afterPrep i b c').phaseReady a k) : s.StepsOn := by
  obtain ⟨b, c', hok', hb, hexec⟩ := prep_next hform (s := r.enter s) (by rw [r.enter_sc]; exact hc) hok hn
  exact stepsOn_of_micro hrun hrow hm rfl hform hf hexec ((hrun.enter r).afterPrep b hok') (hready b c' hb)

/-- A row that issues a micro-operation which writes `DIG[i]`: `INITS`, `COMP`, `SNAP`. -/
theorem stepsOn_of_digest {op : Op} (hrun : s.Running a k) (hrow : seqRow k s = .ok r) (hm : r.micro = some (op, i))
    (hop : op.isCommand = false) (hform : formOk op a k i = true) (hf : r.finish = false)
    (hexec : ∃ x, exec (.ofFields op a k i) (r.enter s) = .next ((r.enter s).setDigest i x) ∧
      (wordsOf a.width a.stateWords x).isSome = true)
    (hready : ∀ x, (wordsOf a.width a.stateWords x).isSome = true → ((r.enter s).setDigest i x).phaseReady a k) :
    s.StepsOn := by
  obtain ⟨x, hx, hshape⟩ := hexec
  exact stepsOn_of_micro hrun hrow hm hop hform hf hx ((hrun.enter r).congr rfl rfl rfl) (hready x hshape)

/-- What `STATUS` and `SEQ` are after the row that ends the command (R185). -/
theorem done_of_leave (hf : r.finish = true) (hseq : s.seq = ⟨.done, 0⟩) :
    (r.leave a s).status = 0x0002 ∧ (r.leave a s).seq = ⟨.done, 0⟩ := by
  simp [SeqRow.leave, hf, hseq]
  decide

/-! ### Rows chosen by a stream's phase and by the lane -/

theorem byPhase_of_done {r r' : SeqRow} (h : s.streamDone i) : byPhase s i r r' = .ok r := by
  obtain ⟨c, hc, hp⟩ := Option.map_eq_some_iff.1 h
  simp [byPhase, hc, hp]

theorem byPhase_of_not_done {c : StreamContext} {r r' : SeqRow} (hc : s.sc[i] = some c) (hn : c.ph ≠ .done) :
    byPhase s i r r' = .ok r' := by
  simp [byPhase, hc, hn]

/-- A stream of a running command is `Done`, or has a context within its bounds that is not. -/
theorem State.Running.stream (h : s.Running a k) (hi : i.val < k.lanes) :
    s.streamDone i ∨ ∃ c, s.sc[i] = some c ∧ c.Ok ∧ c.ph ≠ .done := by
  obtain ⟨c, hc, hok⟩ := h.2.2 i hi
  by_cases hp : c.ph = .done
  · exact .inl (by simp only [State.streamDone, hc, Option.map_some, hp])
  · exact .inr ⟨c, hc, hok, hp⟩

end Rows

/-! ### The scalar path (R183) -/

section Scalar

variable {s : State} {a : Alg} {k : LaneCount}

theorem stepsOn_sInit (hrun : s.Running a k) (hp : s.seq.phase = .sInit) (h : s.phaseReady a k) : s.StepsOn := by
  obtain rfl : k = .k1 := by simpa only [State.phaseReady, hp] using h
  have hrow : seqRow .k1 s = .ok (issues .inits 0 ⟨.sTest, 0⟩) := by simp only [seqRow, hp]
  have hform : formOk .inits a .k1 0 = true := rfl
  have hiv : (wordsOf a.width a.stateWords (WordArray.ofWords a.width a.iv)).isSome = true := by
    simp [wordsOf_ofWords_of_length (iv_length a)]
  refine stepsOn_of_digest hrun hrow rfl rfl hform rfl ⟨_, inits_next hform _, hiv⟩ fun x hx => ?_
  simp [State.phaseReady, issues, digestReady_setDigest hx]

theorem stepsOn_sTest (hrun : s.Running a k) (hp : s.seq.phase = .sTest) (h : s.phaseReady a k) : s.StepsOn := by
  simp only [State.phaseReady, hp] at h
  obtain ⟨rfl, hdig⟩ := h
  obtain hdone | ⟨c, hc, hok, hn⟩ := hrun.stream (i := 0) (by decide)
  · have hrow : seqRow .k1 s = .ok (goto ⟨.sFinal, 0⟩) := by simp only [seqRow, hp, byPhase_of_done hdone]
    refine stepsOn_of_move hrun hrow rfl rfl ?_
    simp only [State.phaseReady, SeqRow.enter_seq, goto]
    exact ⟨trivial, hdig⟩
  · have hrow : seqRow .k1 s = .ok (issues .prep 0 ⟨.sSched, 0⟩) := by
      simp only [seqRow, hp, byPhase_of_not_done hc hn]
    refine stepsOn_of_prep hrun hrow rfl rfl rfl hc hok hn fun b c' hb => ?_
    simp only [State.phaseReady, afterPrep_seq, SeqRow.enter_seq, issues, blockReady_afterPrep _ _ _ _ hb, true_or]
    exact ⟨trivial, hdig, trivial⟩

theorem stepsOn_sSched (hrun : s.Running a k) (hp : s.seq.phase = .sSched) (h : s.phaseReady a k) : s.StepsOn := by
  simp only [State.phaseReady, hp] at h
  obtain ⟨rfl, hdig, hblk⟩ := h
  have hrow : seqRow .k1 s = .ok (issues .sched 0 ⟨.sComp, 0⟩) := by simp only [seqRow, hp]
  have hform : formOk .sched a .k1 0 = true := rfl
  obtain ⟨x, hexec, hx⟩ := sched_next hform (s := s.setSeq ⟨.sComp, 0⟩) hblk
  refine stepsOn_of_micro hrun hrow rfl rfl hform rfl hexec (hrun.congr rfl rfl rfl) ?_
  simp only [State.phaseReady]
  exact ⟨trivial, hdig, hx⟩

theorem stepsOn_sComp (hrun : s.Running a k) (hp : s.seq.phase = .sComp) (h : s.phaseReady a k) : s.StepsOn := by
  simp only [State.phaseReady, hp] at h
  obtain ⟨rfl, hdig, hw⟩ := h
  have hrow : seqRow .k1 s = .ok (issues .comp 0 ⟨.sTest, 0⟩) := by simp only [seqRow, hp]
  have hform : formOk .comp a .k1 0 = true := rfl
  refine stepsOn_of_digest hrun hrow rfl rfl hform rfl (comp_next hform hdig hw) fun x hx => ?_
  simp [State.phaseReady, issues, digestReady_setDigest hx]

theorem stepsOn_sFinal (hrun : s.Running a k) (hp : s.seq.phase = .sFinal) (h : s.phaseReady a k) : s.StepsOn := by
  simp only [State.phaseReady, hp] at h
  obtain ⟨rfl, hdig⟩ := h
  have hrow : seqRow .k1 s = .ok { issues .final 0 ⟨.done, 0⟩ with finish := true } := by simp only [seqRow, hp]
  have hform : formOk .final a .k1 0 = true := rfl
  obtain ⟨bs, hexec⟩ := final_next hform (s := s.setSeq ⟨.done, 0⟩) hdig
  exact ⟨_, coreStep_of_micro hrun hrow rfl rfl hform hexec, .inr (done_of_leave rfl rfl)⟩

end Scalar

/-! ### The lane path (R184) -/

/-- A row chosen at a lane index of the call, or at its end. -/
theorem laneAt_cases {k : LaneCount} {n : Nat} (h : n ≤ k.lanes) :
    (n = k.lanes ∧ laneAt k n = none) ∨ ∃ i : Lane, i.val = n ∧ i.val < k.lanes ∧ laneAt k n = some i := by
  obtain hn | hn := h.eq_or_lt
  · exact .inl ⟨hn, laneAt_of_ge hn.ge⟩
  · obtain ⟨i, hi, hin⟩ := laneAt_of_lt hn
    exact .inr ⟨i, hin, hin ▸ hn, hi⟩

theorem lane_val_ne {i j : Lane} {n : Nat} (hin : i.val = n) (hji : j ≠ i) : j.val ≠ n :=
  fun e => hji (Fin.ext (e.trans hin.symm))

theorem laneAt_of_lane {k : LaneCount} {n : Nat} {i : Lane} (hin : i.val = n) (hi : i.val < k.lanes) :
    laneAt k n = some i := by
  subst hin
  simp [laneAt, hi]

section Parallel

variable {s : State} {a : Alg} {k : LaneCount}

theorem stepsOn_pInit (hrun : s.Running a k) (hp : s.seq.phase = .pInit) (h : s.phaseReady a k) : s.StepsOn := by
  simp only [State.phaseReady, hp] at h
  obtain ⟨hk, hnot⟩ := h
  have hrow : seqRow k s = .ok (issues .initl 0 ⟨.pPrep, 0⟩) := by simp only [seqRow, hp]
  refine stepsOn_of_micro hrun hrow rfl rfl (formOk_lane (by simp) hk) rfl (initl_next hk _) (hrun.congr rfl rfl rfl) ?_
  have hls : (vectorsOf a.width a.stateWords k.lanes (VectorArray.ofVectors a.width
      (a.iv.map (vectorUnit a.width.bits k.lanes).broadcast))).isSome = true := by
    rw [vectorsOf_ofVectors (by rw [List.length_map, iv_length]) (by simp [vectorUnit])]
    rfl
  simp only [State.phaseReady, SeqRow.enter_seq, issues]
  exact ⟨hk, hls, Nat.zero_le _, fun i hi => ⟨fun h => absurd h (Nat.not_lt_zero _), fun _ hd => absurd hd (hnot i hi)⟩⟩

/-- A row that clears `NEWDONE[i]` leaves the other lanes' (R184). -/
theorem newDone_enter_clear (m : Option (Op × Lane)) (q : Seq) (f : Bool) (s : State) (i j : Lane) :
    (SeqRow.enter ⟨some i, m, q, f⟩ s).newDone[j] = if j = i then some false else s.newDone[j] :=
  perLane_getElem_set s.newDone i j (some false)

theorem stepsOn_pPrep (hrun : s.Running a k) (hp : s.seq.phase = .pPrep) (h : s.phaseReady a k) : s.StepsOn := by
  simp only [State.phaseReady, hp] at h
  obtain ⟨hk, hls, hle, hlanes⟩ := h
  obtain ⟨hn, hnone⟩ | ⟨i, hin, hi, hsome⟩ := laneAt_cases hle
  · have hrow : seqRow k s = .ok (goto ⟨.pPack, 0⟩) := by simp only [seqRow, hp, byLane, hnone]
    refine stepsOn_of_move hrun hrow rfl rfl ?_
    simp only [State.phaseReady, SeqRow.enter_seq, goto]
    exact ⟨hk, hls, fun j hj => (hlanes j hj).1 (hn ▸ hj)⟩
  · obtain hdone | ⟨c, hc, hok, hnd⟩ := hrun.stream hi
    · have hrow : seqRow k s = .ok { goto ⟨.pPrep, s.seq.lane + 1⟩ with clear := some i } := by
        simp only [seqRow, hp, byLane, hsome, byPhase_of_done hdone]
      refine stepsOn_of_move hrun hrow rfl rfl ?_
      simp only [State.phaseReady, SeqRow.enter_seq, goto, newDone_enter_clear]
      refine ⟨hk, hls, hin ▸ hi, fun j hj => ?_⟩
      by_cases hji : j = i
      · subst hji
        obtain ⟨hblk, hdig⟩ := (hlanes j hj).2 hin.ge hdone
        exact ⟨fun _ => ⟨hblk, by simp, fun _ => .inr hdig⟩, fun h => by omega⟩
      · have hne : j.val ≠ s.seq.lane := lane_val_ne hin hji
        rw [if_neg hji]
        exact ⟨fun h => (hlanes j hj).1 (by omega), fun h => (hlanes j hj).2 (by omega)⟩
    · have hrow : seqRow k s = .ok { issues .prep i ⟨.pPrep, s.seq.lane + 1⟩ with clear := some i } := by
        simp only [seqRow, hp, byLane, hsome, byPhase_of_not_done hc hnd]
      refine stepsOn_of_prep hrun hrow rfl (formOk_scalar (by simp) (.inr hk) hi) rfl hc hok hnd fun b c' hb => ?_
      simp only [State.phaseReady, afterPrep_seq, SeqRow.enter_seq, issues, blockReady_afterPrep _ _ _ _ hb,
        streamDone_afterPrep, newDone_afterPrep, newDone_enter_clear]
      refine ⟨hk, hls, hin ▸ hi, fun j hj => ?_⟩
      by_cases hji : j = i
      · subst hji
        exact ⟨fun _ => ⟨.inl rfl, by simp, fun hd => .inl (by simpa using hd)⟩, fun h => by omega⟩
      · have hne : j.val ≠ s.seq.lane := lane_val_ne hin hji
        simp only [if_neg hji]
        refine ⟨fun h => ?_, fun h hd => ?_⟩
        · obtain ⟨hblk, hrest⟩ := (hlanes j hj).1 (by omega)
          exact ⟨.inr hblk, hrest⟩
        · obtain ⟨hblk, hdig⟩ := (hlanes j hj).2 (by omega) hd
          exact ⟨.inr hblk, hdig⟩

theorem stepsOn_pPack (hrun : s.Running a k) (hp : s.seq.phase = .pPack) (h : s.phaseReady a k) : s.StepsOn := by
  simp only [State.phaseReady, hp] at h
  obtain ⟨hk, hls, hround⟩ := h
  have hrow : seqRow k s = .ok (issues .pack 0 ⟨.pCompl, 0⟩) := by simp only [seqRow, hp]
  obtain ⟨x, hexec, hx⟩ := pack_next hk (s := s.setSeq ⟨.pCompl, 0⟩) fun i hi => (hround i hi).1
  refine stepsOn_of_micro hrun hrow rfl rfl (formOk_lane (by simp) hk) rfl hexec (hrun.congr rfl rfl rfl) ?_
  simp only [State.phaseReady]
  exact ⟨hk, hls, hround, hx⟩

theorem stepsOn_pCompl (hrun : s.Running a k) (hp : s.seq.phase = .pCompl) (h : s.phaseReady a k) : s.StepsOn := by
  simp only [State.phaseReady, hp] at h
  obtain ⟨hk, hls, hround, hlw⟩ := h
  have hrow : seqRow k s = .ok (issues .compl 0 ⟨.pSnap, 0⟩) := by simp only [seqRow, hp]
  obtain ⟨x, hexec, hx⟩ := compl_next hk (s := s.setSeq ⟨.pSnap, 0⟩) hls hlw
  refine stepsOn_of_micro hrun hrow rfl rfl (formOk_lane (by simp) hk) rfl hexec (hrun.congr rfl rfl rfl) ?_
  simp only [State.phaseReady]
  refine ⟨hk, hx, Nat.zero_le _, fun i hi => ?_⟩
  obtain ⟨hblk, hnew, hcap⟩ := hround i hi
  exact ⟨hblk, hnew, fun hd => (hcap hd).symm.imp id fun h => ⟨Nat.zero_le _, h⟩⟩

theorem stepsOn_pSnap (hrun : s.Running a k) (hp : s.seq.phase = .pSnap) (h : s.phaseReady a k) : s.StepsOn := by
  simp only [State.phaseReady, hp] at h
  obtain ⟨hk, hls, hle, hlanes⟩ := h
  obtain ⟨hn, hnone⟩ | ⟨i, hin, hi, hsome⟩ := laneAt_cases hle
  · have hrow : seqRow k s = .ok (goto ⟨.pTest, 0⟩) := by simp only [seqRow, hp, byLane, hnone]
    refine stepsOn_of_move hrun hrow rfl rfl ?_
    simp only [State.phaseReady, SeqRow.enter_seq, goto]
    refine ⟨hk, hls, fun j hj => ?_⟩
    obtain ⟨hblk, -, hcap⟩ := hlanes j hj
    exact ⟨hblk, fun hd => (hcap hd).resolve_right fun h => by omega⟩
  · have ⟨_, hnew, _⟩ := hlanes i hi
    cases hval : s.newDone[i] with
    | none => exact absurd hval hnew
    | some v => cases v with
      | true =>
        have hrow : seqRow k s = .ok (issues .snap i ⟨.pSnap, s.seq.lane + 1⟩) := by
          simp only [seqRow, hp, byLane, hsome, hval]
        have hform := formOk_snap hk hi
        refine stepsOn_of_digest hrun hrow rfl rfl hform rfl (snap_next hform hls) fun x hx => ?_
        simp only [State.phaseReady, State.setDigest_seq, SeqRow.enter_seq, issues, digestReady_setDigest hx]
        refine ⟨hk, hls, hin ▸ hi, fun j hj => ?_⟩
        obtain ⟨hblk, hnew, hcap⟩ := hlanes j hj
        refine ⟨hblk, hnew, fun hd => ?_⟩
        by_cases hji : j = i
        · exact .inl (.inl hji)
        · have hne : j.val ≠ s.seq.lane := lane_val_ne hin hji
          exact (hcap hd).imp .inr fun ⟨hle, hnew⟩ => ⟨by omega, hnew⟩
      | false =>
        have hrow : seqRow k s = .ok (goto ⟨.pSnap, s.seq.lane + 1⟩) := by
          simp only [seqRow, hp, byLane, hsome, hval]
        refine stepsOn_of_move hrun hrow rfl rfl ?_
        simp only [State.phaseReady, SeqRow.enter_seq, goto]
        refine ⟨hk, hls, hin ▸ hi, fun j hj => ?_⟩
        obtain ⟨hblk, hnew, hcap⟩ := hlanes j hj
        refine ⟨hblk, hnew, fun hd => (hcap hd).imp_right fun ⟨hle, htrue⟩ => ?_⟩
        by_cases hji : j = i
        · subst hji; exact absurd (hval.symm.trans htrue) (by decide)
        · have hne : j.val ≠ s.seq.lane := lane_val_ne hin hji
          exact ⟨by omega, htrue⟩

theorem stepsOn_pTest (hrun : s.Running a k) (hp : s.seq.phase = .pTest) (h : s.phaseReady a k) : s.StepsOn := by
  simp only [State.phaseReady, hp] at h
  obtain ⟨hk, hls, hlanes⟩ := h
  obtain ⟨n, hn⟩ := activeCount_ok (s := s) (l := k.laneList) fun i hi =>
    have ⟨c, hc, _⟩ := hrun.2.2 i (mem_laneList.1 hi)
    ⟨c, hc⟩
  have hrow : seqRow k s = .ok (goto (if threshold s.params k < n then ⟨.pPrep, 0⟩ else ⟨.dNext, 0⟩)) := by
    simp only [seqRow, hp, hn]
  refine stepsOn_of_move hrun hrow rfl rfl ?_
  split
  · simp only [State.phaseReady, SeqRow.enter_seq, goto]
    exact ⟨hk, hls, Nat.zero_le _, fun j hj => ⟨fun h => absurd h (Nat.not_lt_zero _),
      fun _ hd => ⟨(hlanes j hj).1, (hlanes j hj).2 hd⟩⟩⟩
  · simp only [State.phaseReady, SeqRow.enter_seq, goto]
    exact ⟨hk, hls, Nat.zero_le _, fun j hj => ⟨(hlanes j hj).2, fun h => absurd h (Nat.not_lt_zero _)⟩⟩

/-! ### The downgrade and the end (R180, R181, R185) -/

theorem downgraded_setDigest {n : Nat} {x : WordArray} (hx : (wordsOf a.width a.stateWords x).isSome = true) (i : Lane)
    (h : s.downgraded a k n) : (s.setDigest i x).downgraded a k n := fun j hj =>
  ⟨fun hd => (digestReady_setDigest hx s i j).2 (.inr ((h j hj).1 hd)), (h j hj).2⟩

/-- The downgrade of the next lane finishes when its stream is `Done`. -/
theorem downgraded_succ {n : Nat} {i : Lane} (hin : i.val = n) (hd : s.streamDone i) (h : s.downgraded a k n) :
    s.downgraded a k (n + 1) := by
  refine fun j hj => ⟨(h j hj).1, fun hlt => ?_⟩
  by_cases hji : j = i
  · exact hji ▸ hd
  · have hne : j.val ≠ n := lane_val_ne hin hji
    exact (h j hj).2 (by omega)

/-- A `PREP` of the lane under way, whose state is captured, keeps what the downgrade has done. -/
theorem downgraded_afterPrep {n : Nat} {i : Lane} (hin : i.val = n) (hdig : s.digestReady a i) (b : List Byte)
    (c : StreamContext) (h : s.downgraded a k n) : (s.afterPrep i b c).downgraded a k n := by
  intro j hj
  rw [streamDone_afterPrep]
  by_cases hji : j = i
  · subst hji; exact ⟨fun _ => hdig, fun hlt => absurd hlt (by omega)⟩
  · simp only [if_neg hji]; exact h j hj

theorem stepsOn_dNext (hrun : s.Running a k) (hp : s.seq.phase = .dNext) (h : s.phaseReady a k) : s.StepsOn := by
  simp only [State.phaseReady, hp] at h
  obtain ⟨hk, hls, hle, hdown⟩ := h
  obtain ⟨hn, hnone⟩ | ⟨i, hin, hi, hsome⟩ := laneAt_cases hle
  · have hrow : seqRow k s = .ok (goto ⟨.fFinal, 0⟩) := by simp only [seqRow, hp, byLane, hnone]
    refine stepsOn_of_move hrun hrow rfl rfl ?_
    simp only [State.phaseReady, SeqRow.enter_seq, goto]
    refine ⟨hk, Nat.zero_le _, fun j hj => ?_⟩
    obtain ⟨hcap, hdone⟩ := hdown j hj
    exact ⟨hdone (hn ▸ hj), hcap (hdone (hn ▸ hj))⟩
  · obtain hdone | ⟨c, hc, hok, hnd⟩ := hrun.stream hi
    · have hrow : seqRow k s = .ok (goto ⟨.dNext, s.seq.lane + 1⟩) := by
        simp only [seqRow, hp, byLane, hsome, byPhase_of_done hdone]
      refine stepsOn_of_move hrun hrow rfl rfl ?_
      simp only [State.phaseReady, SeqRow.enter_seq, goto]
      exact ⟨hk, hls, hin ▸ hi, downgraded_succ hin hdone hdown⟩
    · have hrow : seqRow k s = .ok (issues .snap i ⟨.dTest, s.seq.lane⟩) := by
        simp only [seqRow, hp, byLane, hsome, byPhase_of_not_done hc hnd]
      have hform := formOk_snap hk hi
      refine stepsOn_of_digest hrun hrow rfl rfl hform rfl (snap_next hform hls) fun x hx => ?_
      simp only [State.phaseReady, State.setDigest_seq, SeqRow.enter_seq, issues, digestReady_setDigest hx]
      exact ⟨hk, hls, downgraded_setDigest hx i hdown, i, hin, hi, .inl rfl⟩

theorem stepsOn_dTest (hrun : s.Running a k) (hp : s.seq.phase = .dTest) (h : s.phaseReady a k) : s.StepsOn := by
  simp only [State.phaseReady, hp] at h
  obtain ⟨hk, hls, hdown, i, hin, hi, hdig⟩ := h
  have hsome := laneAt_of_lane hin hi
  obtain hdone | ⟨c, hc, hok, hnd⟩ := hrun.stream hi
  · have hrow : seqRow k s = .ok (goto ⟨.dNext, s.seq.lane + 1⟩) := by
      simp only [seqRow, hp, byLane, hsome, byPhase_of_done hdone]
    refine stepsOn_of_move hrun hrow rfl rfl ?_
    simp only [State.phaseReady, SeqRow.enter_seq, goto]
    exact ⟨hk, hls, hin ▸ hi, downgraded_succ hin hdone hdown⟩
  · have hrow : seqRow k s = .ok (issues .prep i ⟨.dSched, s.seq.lane⟩) := by
      simp only [seqRow, hp, byLane, hsome, byPhase_of_not_done hc hnd]
    refine stepsOn_of_prep hrun hrow rfl (formOk_scalar (by simp) (.inr hk) hi) rfl hc hok hnd fun b c' hb => ?_
    simp only [State.phaseReady, afterPrep_seq, SeqRow.enter_seq, issues, blockReady_afterPrep _ _ _ _ hb]
    exact ⟨hk, hls, downgraded_afterPrep hin hdig b c' hdown, i, hin, hi, hdig, .inl rfl⟩

theorem stepsOn_dSched (hrun : s.Running a k) (hp : s.seq.phase = .dSched) (h : s.phaseReady a k) : s.StepsOn := by
  simp only [State.phaseReady, hp] at h
  obtain ⟨hk, hls, hdown, i, hin, hi, hdig, hblk⟩ := h
  have hrow : seqRow k s = .ok (issues .sched i ⟨.dComp, s.seq.lane⟩) := by
    simp only [seqRow, hp, byLane, laneAt_of_lane hin hi]
  have hform : formOk .sched a k i = true := formOk_scalar (by simp) (.inr hk) hi
  obtain ⟨x, hexec, hx⟩ := sched_next hform (s := s.setSeq ⟨.dComp, s.seq.lane⟩) hblk
  refine stepsOn_of_micro hrun hrow rfl rfl hform rfl hexec (hrun.congr rfl rfl rfl) ?_
  simp only [State.phaseReady]
  exact ⟨hk, hls, hdown, i, hin, hi, hdig, hx⟩

theorem stepsOn_dComp (hrun : s.Running a k) (hp : s.seq.phase = .dComp) (h : s.phaseReady a k) : s.StepsOn := by
  simp only [State.phaseReady, hp] at h
  obtain ⟨hk, hls, hdown, i, hin, hi, hdig, hw⟩ := h
  have hrow : seqRow k s = .ok (issues .comp i ⟨.dTest, s.seq.lane⟩) := by
    simp only [seqRow, hp, byLane, laneAt_of_lane hin hi]
  have hform : formOk .comp a k i = true := formOk_scalar (by simp) (.inr hk) hi
  refine stepsOn_of_digest hrun hrow rfl rfl hform rfl (comp_next hform hdig hw) fun x hx => ?_
  simp only [State.phaseReady, State.setDigest_seq, SeqRow.enter_seq, issues, digestReady_setDigest hx]
  exact ⟨hk, hls, downgraded_setDigest hx i hdown, i, hin, hi, .inl rfl⟩

theorem stepsOn_fFinal (hrun : s.Running a k) (hp : s.seq.phase = .fFinal) (h : s.phaseReady a k) : s.StepsOn := by
  simp only [State.phaseReady, hp] at h
  obtain ⟨hk, hle, hlanes⟩ := h
  obtain ⟨-, hnone⟩ | ⟨i, hin, hi, hsome⟩ := laneAt_cases hle
  · have hrow : seqRow k s = .ok { goto ⟨.done, 0⟩ with finish := true } := by simp only [seqRow, hp, byLane, hnone]
    exact ⟨_, (coreStep_of_running hrun hrow).trans (takeRow_none rfl s), .inr (done_of_leave rfl rfl)⟩
  · have hrow : seqRow k s = .ok (issues .final i ⟨.fFinal, s.seq.lane + 1⟩) := by
      simp only [seqRow, hp, byLane, hsome]
    have hform : formOk .final a k i = true := formOk_scalar (by simp) (.inr hk) hi
    obtain ⟨bs, hexec⟩ := final_next hform (s := s.setSeq ⟨.fFinal, s.seq.lane + 1⟩) (hlanes i hi).2
    refine stepsOn_of_micro hrun hrow rfl rfl hform rfl hexec (hrun.congr rfl rfl rfl) ?_
    simp only [State.phaseReady]
    exact ⟨hk, hin ▸ hi, hlanes⟩

end Parallel

/-- Settles O55, phase by phase (R183, R184). -/
theorem runningCommandNeverStops : Obligations.RunningCommandNeverStops := by
  intro s hready
  obtain ⟨a, k, hrun, h⟩ := ready_iff.1 hready
  cases hp : s.seq.phase with
  | idle => simp [State.phaseReady, hp] at h
  | done => simp [State.phaseReady, hp] at h
  | failed => simp [State.phaseReady, hp] at h
  | sInit => exact stepsOn_sInit hrun hp h
  | sTest => exact stepsOn_sTest hrun hp h
  | sSched => exact stepsOn_sSched hrun hp h
  | sComp => exact stepsOn_sComp hrun hp h
  | sFinal => exact stepsOn_sFinal hrun hp h
  | pInit => exact stepsOn_pInit hrun hp h
  | pPrep => exact stepsOn_pPrep hrun hp h
  | pPack => exact stepsOn_pPack hrun hp h
  | pCompl => exact stepsOn_pCompl hrun hp h
  | pSnap => exact stepsOn_pSnap hrun hp h
  | pTest => exact stepsOn_pTest hrun hp h
  | dNext => exact stepsOn_dNext hrun hp h
  | dTest => exact stepsOn_dTest hrun hp h
  | dSched => exact stepsOn_dSched hrun hp h
  | dComp => exact stepsOn_dComp hrun hp h
  | fFinal => exact stepsOn_fFinal hrun hp h

/-! ### The start of a command -/

/-- The state an accept leaves when it does not fail (R171, R172) is ready. -/
theorem ready_of_accepted {op : Op} {a : Alg} {k : LaneCount} {s : State} (hop : op.isCommand = true)
    (hform : formOk op a k 0 = true)
    (hdesc : ∀ i : Lane, i.val < k.lanes → ∃ d, s.srcDesc[i] = some d ∧ descTooLong d = false) :
    ((constructStreams k.laneList (State.dropShared { s.beginCommand with ctx := some ⟨a, k⟩ })).setSeq
      ⟨firstPhase op, 0⟩).Ready := by
  generalize hu : constructStreams k.laneList (State.dropShared { s.beginCommand with ctx := some ⟨a, k⟩ }) = u
  have hsc (i : Lane) (hi : i.val < k.lanes) : ∃ d, u.sc[i] = some (newStream d) := by
    obtain ⟨d, hd, -⟩ := hdesc i hi
    exact ⟨d, hu ▸ constructStreams_sc_of_lane hi hd⟩
  have hstatus : u.status = statusWord .busy 0 0 := by rw [← hu, (constructStreams_effect ..).1]; rfl
  have hctx : u.ctx = some ⟨a, k⟩ := by rw [← hu, (constructStreams_effect ..).1]; rfl
  have hrun : (u.setSeq ⟨firstPhase op, 0⟩).Running a k := ⟨hstatus, hctx, fun i hi =>
    have ⟨d, hd⟩ := hsc i hi
    ⟨newStream d, hd, newStream_ok d⟩⟩
  refine ready_iff.2 ⟨a, k, hrun, ?_⟩
  cases op
  case hash => simpa [State.phaseReady, firstPhase, formOk, laneCountOk, laneOk] using hform
  case hashpar =>
    simp only [State.phaseReady, State.setSeq_seq, firstPhase, if_true]
    refine ⟨by simpa [formOk, laneCountOk, laneOk] using hform, fun i hi => ?_⟩
    obtain ⟨d, hd⟩ := hsc i hi
    simp only [State.streamDone, State.setSeq_sc, hd, newStream]
    simp
  all_goals cases hop

theorem busy_raise (e : CoreError) (s : State) : (s.raise e).busy = false := by
  rw [State.busy, State.raise_status]
  cases e <;> decide

/-- An accept that leaves the core `BUSY` has not failed, and its command is ready. -/
theorem ready_of_acceptCommand {op : Op} {a : Alg} {k : LaneCount} {s t : State} (hop : op.isCommand = true)
    (h : acceptCommand op a k s = .next t) (hbusy : t.busy = true) : t.Ready := by
  obtain ⟨e, u, rfl, -, -⟩ | ⟨hform, hdesc, rfl⟩ := acceptCommand_cases h
  · simp [busy_raise] at hbusy
  · exact ready_of_accepted hop hform hdesc

/-- Settles O54, from the accept of either command. -/
theorem acceptedCommandIsReady : Obligations.AcceptedCommandIsReady := by
  intro j s t hj h hbusy
  rw [exec_of_isCommand hj] at h
  exact ready_of_acceptCommand hj h hbusy

end Sys2Proof.Machine

/-! PROOF. What a step of the core does to the streams (10_state rule R25). -/

namespace Sys2Proof.Machine

@[simp] theorem SeqRow.leave_sc (r : SeqRow) (a : Alg) (s : State) : (r.leave a s).sc = s.sc := by
  unfold SeqRow.leave
  split <;> rfl

/-- The word a step issues is that of its row (R81). -/
theorem issuedWord_of_row {s : State} {c : CommandContext} {r : SeqRow} (hctx : s.ctx = some c)
    (hrow : seqRow c.k s = .ok r) : issuedWord s = r.word c := by
  simp only [issuedWord, hctx, hrow]

/-- A step of the core leaves the streams as they are, or it is a `PREP` and frames one that is not `Done`. -/
theorem coreStep_sc_cases {s t : State} (h : coreStep s = .next t) :
    t.sc = s.sc ∨ ∃ x i c b c', s.ctx = some x ∧ issuedWord s = some (wordOfFields .prep x.alg x.k i) ∧
      s.sc[i] = some c ∧ c.ph ≠ .done ∧ frameBlock x.alg s.src i c = some (b, c') ∧ t.sc = s.sc.set i (some c') := by
  obtain ⟨-, rfl⟩ | ⟨x, r, -, hctx, hrow, htake⟩ := coreStep_cases h
  · exact .inl rfl
  obtain ⟨-, rfl⟩ | ⟨op, i, u, hm, hop, hu, rfl⟩ := takeRow_cases htake
  · exact .inl (by simp)
  obtain ⟨e, rfl⟩ | ⟨-, -, -, -, -, -, -, -, -, -, hsc⟩ := micro_effect hop hu
  · exact .inl (by simp)
  obtain hsc | ⟨c, b, c', rfl, hc, hn, hframe, hsc⟩ := hsc
  · exact .inl (by simp [hsc])
  · rw [r.enter_sc] at hc hsc
    rw [r.enter_src] at hframe
    have hword : issuedWord s = some (wordOfFields .prep x.alg x.k i) := by
      rw [issuedWord_of_row hctx hrow, SeqRow.word, hm]; rfl
    exact .inr ⟨x, i, c, b, c', hctx, hword, hc, hn, hframe, by rw [r.leave_sc, hsc]⟩

/-- Settles O30: a stream that the step does not frame is unchanged, one that it frames obeys `frameBlock_ok`. -/
theorem streamContextInvariants : Obligations.StreamContextInvariants := by
  rintro s t i c ⟨-, -, -, hstreams⟩ hstep hc
  have hok : c.Ok := hstreams i c hc
  have ⟨_, _, hcur, hmarker⟩ := hok
  have unchanged (ht : t.sc[i] = s.sc[i]) :
      ∃ c', t.sc[i] = some c' ∧ c'.len = c.len ∧ c'.bitLen = c.bitLen ∧
        c.cur.toNat ≤ c'.cur.toNat ∧ c'.cur.toNat ≤ c'.len.toNat ∧ c.ph.rank ≤ c'.ph.rank ∧ (c.ph = .done → c' = c) ∧
        (c'.ph = .markerWritten → c'.cur = c'.len) ∧
        (c' ≠ c → ∃ x : CommandContext, s.ctx = some x ∧ issuedWord s = some (wordOfFields .prep x.alg x.k i)) :=
    ⟨c, ht.trans hc, rfl, rfl, le_rfl, hcur, le_rfl, fun _ => rfl, hmarker, fun h => absurd rfl h⟩
  obtain hsc | ⟨x, j, c₀, b, c', hctx, hword, hc₀, hn, hframe, hsc⟩ := coreStep_sc_cases hstep
  · exact unchanged (by rw [hsc])
  · by_cases hij : i = j
    · subst hij
      obtain rfl : c₀ = c := Option.some.inj (hc₀.symm.trans hc)
      obtain ⟨⟨_, _, hcur', hmarker'⟩, -, hlen, hbits, hmono, hrank⟩ := frameBlock_ok hok hframe
      exact ⟨c', by rw [hsc, perLane_getElem_set, if_pos rfl], hlen, hbits, hmono, hcur', hrank, fun h => absurd h hn,
        hmarker', fun _ => ⟨x, hctx, hword⟩⟩
    · exact unchanged (by rw [hsc, perLane_getElem_set, if_neg hij])

end Sys2Proof.Machine

/-! PROOF. The lane schedule against the scalar schedules (43_lane_compressor rules R151 to R153). -/

namespace Sys2Proof

/-- Column `j` of the vectors whose lane `j` is a list of words. -/
theorem column_eq_of_isLane {w K j : Nat} {vs : List (List (BitVec w))} {ws : List (BitVec w)}
    (h : List.Forall₂ (IsLane K j) vs ws) : Machine.column 0 vs j = ws := by
  induction h with
  | nil => rfl
  | cons hx _ ih => simp only [Machine.column, List.map_cons, hx.getD_eq] at ih ⊢; rw [ih]

end Sys2Proof

namespace Sys2Proof.Machine

/-- The lanes of a call, by number. -/
theorem laneList_getElem? {k : LaneCount} {j : Lane} (hj : j.val < k.lanes) : k.laneList[j.val]? = some j := by
  revert j; cases k <;> decide

/-- The blocks read are those of the lanes, in their order. -/
theorem readBlocks_getElem? {s : State} {l : List Lane} {bs : List (List Byte)} (h : readBlocks s l = .ok bs) (n : Nat) :
    bs[n]? = l[n]?.bind fun i => s.blk[i] := by
  induction l generalizing bs n with
  | nil => cases h; simp
  | cons i l ih =>
    unfold readBlocks at h
    split at h
    · cases h
    · cases h
    · rename_i b bs' hb hbs
      cases h
      cases n with
      | zero => simpa using hb.symm
      | succ n => simpa using ih hbs n

/-- Lane `j` of the gather is the words of block `j` (R152). -/
theorem gather_isLane {a : Alg} {blks : List (List Byte)} {j : Nat} {b : List Byte} (hb : blks[j]? = some b) :
    List.Forall₂ (IsLane blks.length j) (gather a blks) (blockWords a.order a.width b) := by
  simp only [gather, blockWords, List.forall₂_map_left_iff, List.forall₂_map_right_iff, List.forall₂_same]
  intro t _
  exact ⟨by simp, by simp [hb]⟩

/-- Column `j` of the lane schedule is the schedule of block `j` (R153). -/
theorem column_expand_gather {a : Alg} {blks : List (List Byte)} {j : Nat} {b : List Byte} (hb : blks[j]? = some b) :
    column 0 (expand a.family (vectorUnit a.width.bits blks.length) (gather a blks)) j = scheduleOf a b := by
  have hj : j < blks.length := (List.getElem?_eq_some_iff.1 hb).1
  exact column_eq_of_isLane (extend_rel (vectorUnit_lane hj) _ (gather_isLane hb))

/-- `SCHED` on a block of `B` bytes: its whole next state (R131). -/
theorem sched_of_block {a : Alg} {k : LaneCount} {i : Lane} {s : State} {b : List Byte} (hform : formOk .sched a k i = true)
    (hb : s.blk[i] = some b) (hl : b.length = a.blockBytes) :
    exec (.ofFields .sched a k i) s = .next { s with w := some (WordArray.ofWords a.width (scheduleOf a b)) } := by
  rw [exec_sched, buildSchedule, microOperation_of_ok hform]
  simp only [hb, withValue_some, hl, if_true]

/-- `PACK` on blocks of `B` bytes: its whole next state (R151). -/
theorem pack_of_blocks {a : Alg} {k : LaneCount} {s : State} {bs : List (List Byte)} (hk : laneCountLegal a k = true)
    (hbs : readBlocks s k.laneList = .ok bs) (hl : ∀ b ∈ bs, b.length = a.blockBytes) :
    exec (.ofFields .pack a k 0) s = .next { s with
      lw := some (VectorArray.ofVectors a.width
        (expand a.family (vectorUnit a.width.bits k.lanes) (gather a bs))) } := by
  rw [exec_pack, packLanes, microOperation_of_ok (formOk_lane (by simp) hk)]
  simp only [hbs]
  rw [if_pos hl]

/-- Settles O41: the schedule of the vector unit is lane by lane that of the scalar unit. -/
theorem packColumnIsSchedule : Obligations.PackColumnIsSchedule := by
  intro a k s hk hblk
  have hready (i : Lane) (hi : i ∈ k.laneList) : s.blockReady a i := by
    obtain ⟨b, hb, hl⟩ := hblk i (mem_laneList.1 hi)
    simp only [State.blockReady, hb, Option.map_some, hl]
  obtain ⟨bs, hbs, hlen, hl⟩ := readBlocks_ok hready
  have hK : bs.length = k.lanes := hlen.trans laneList_length
  refine ⟨_, pack_of_blocks hk hbs hl, expand_length _ _ (by simp [gather]),
    extend_vectorUnit_length (by simp [gather, hK]), fun j hj => ?_⟩
  obtain ⟨b, hb, hbl⟩ := hblk j hj
  have hbj : bs[j.val]? = some b := by rw [readBlocks_getElem? hbs, laneList_getElem? hj]; exact hb
  rw [← hK, column_expand_gather hbj]
  exact sched_of_block (formOk_scalar (by simp) (.inr hk) hj) hb hbl

end Sys2Proof.Machine

/-! PROOF. Reads of an element without value (10_state rule R44). -/

namespace Sys2Proof.Machine

/-- The lanes of a call ascend (R20). -/
theorem laneList_pairwise (k : LaneCount) : k.laneList.Pairwise (· < ·) := by cases k <;> decide

/-- The first lane without a block is the one named (log entry 1). -/
theorem readBlocks_error_of_first {s : State} {i : Lane} (hi : s.blk[i] = none) (post : List Lane) {pre : List Lane}
    (hpre : ∀ j ∈ pre, s.blk[j] ≠ none) : readBlocks s (pre ++ i :: post) = .error i := by
  induction pre with
  | nil => simp only [List.nil_append, readBlocks, hi]
  | cons j pre ih =>
    obtain ⟨b, hb⟩ := Option.ne_none_iff_exists'.1 (hpre j (by simp))
    simp only [List.cons_append, readBlocks, hb, ih fun j hj => hpre j (by simp [hj])]

/-- Over a call's lanes that is the lowest one. -/
theorem readBlocks_error_of_lowest {k : LaneCount} {s : State} {i : Lane} (hik : i.val < k.lanes) (hi : s.blk[i] = none)
    (hlow : ∀ j : Lane, j.val < i.val → s.blk[j] ≠ none) : readBlocks s k.laneList = .error i := by
  obtain ⟨pre, post, hsplit⟩ := List.append_of_mem (mem_laneList.2 hik)
  have hsorted := laneList_pairwise k
  rw [hsplit, List.pairwise_append] at hsorted
  obtain ⟨-, -, hbefore⟩ := hsorted
  rw [hsplit]
  exact readBlocks_error_of_first hi post fun j hj => hlow j (hbefore j hj i (by simp))

section Reads

variable {a : Alg} {k : LaneCount} {i : Lane} {s : State}

theorem withDigest_of_none (h : s.dig[i] = none) (f : List (Word a.width) → Result) :
    withDigest a i s f = .fault (.noValue (.digestWords i)) := by
  simp only [withDigest, h, Option.bind_none, withValue_none]

theorem withDigest_of_ready (h : s.digestReady a i) (f : List (Word a.width) → Result) : ∃ x, withDigest a i s f = f x := by
  obtain ⟨x, hx⟩ := Option.isSome_iff_exists.1 h
  exact ⟨x, by simp only [withDigest, hx, withValue_some]⟩

theorem withLaneState_of_none (h : s.ls = none) (f : List (List (Word a.width)) → Result) :
    withLaneState a k s f = .fault (.noValue .laneState) := by
  simp only [withLaneState, h, Option.bind_none, withValue_none]

theorem withLaneState_of_ready (h : s.laneStateReady a k) (f : List (List (Word a.width)) → Result) :
    ∃ x, withLaneState a k s f = f x := by
  obtain ⟨x, hx⟩ := Option.isSome_iff_exists.1 h
  exact ⟨x, by simp only [withLaneState, hx, withValue_some]⟩

end Reads

/-- Settles O45, operation by operation. -/
theorem unwrittenReadsFault : Obligations.UnwrittenReadsFault := by
  intro a k i s
  refine ⟨fun hf h => ?prep, fun hf h => ?sched, fun hf h => ?comp, fun hf h => ?final, fun hf hd h => ?compSchedule,
    fun hf hi h hlow => ?pack, fun hf h => ?compl, fun hf h => ?snap, fun hf hl h => ?complSchedule⟩
  case prep => rw [exec_prep, prepareBlock, microOperation_of_ok hf, h, withValue_none]
  case sched => rw [exec_sched, buildSchedule, microOperation_of_ok hf, h, withValue_none]
  case comp => rw [exec_comp, compressScalar, microOperation_of_ok hf, withDigest_of_none h]
  case final => rw [exec_final, finalizeDigest, microOperation_of_ok hf, withDigest_of_none h]
  case compSchedule =>
    rw [exec_comp, compressScalar, microOperation_of_ok hf]
    obtain ⟨x, hx⟩ := withDigest_of_ready hd _
    rw [hx, h, withValue_none]
  case pack => rw [exec_pack, packLanes, microOperation_of_ok hf, readBlocks_error_of_lowest hi h hlow]
  case compl => rw [exec_compl, compressLanes, microOperation_of_ok hf, withLaneState_of_none h]
  case snap => rw [exec_snap, snapshotLane, microOperation_of_ok hf, withLaneState_of_none h]
  case complSchedule =>
    rw [exec_compl, compressLanes, microOperation_of_ok hf]
    obtain ⟨x, hx⟩ := withLaneState_of_ready hl _
    rw [hx, h, withValue_none]

end Sys2Proof.Machine

/-! PROOF. Reset (10_state rule R45, 70_reset_and_hazards rule R220) and the host's registers (10_state rules R37 to R41). -/

namespace Sys2Proof.Machine

/-! ### Reset -/

/-- Settles O7, field by field. -/
theorem resetValues : Obligations.ResetValues := by
  intro p s
  have hlanes (i : Lane) : s.sc[i] = none ∧ s.newDone[i] = none ∧ s.blk[i] = none ∧ s.dig[i] = none ∧ s.out[i] = none ∧
      s.srcDesc[i] = none := by simp [s, State.resetWith]
  have hhash (a : Alg) : exec (.ofFields .hash a .k1 0) s = .refused (.descriptorUnwritten 0) := by
    rw [exec_hash]; rfl
  have hstatus : s.status = 0x0000 := rfl
  exact ⟨hstatus, by rw [hstatus]; decide, by rw [hstatus]; decide, by rw [hstatus]; decide, rfl, rfl, rfl, rfl, rfl,
    rfl, rfl, hlanes, rfl, hhash⟩

/-- Settles O8. -/
theorem resetAtAnyTime : Obligations.ResetAtAnyTime := by
  intro s rest hissue hhost
  simp only [step, hissue, hhost, hostStep, State.applyReset]

theorem whenNotBusy_of_not_busy {s : State} (h : s.busy = false) (r : Result) : whenNotBusy s r = r := by
  simp [whenNotBusy, h]

/-! ### `CAP` -/

/-- The bits of `CAP` (R38). -/
theorem getLsbD_capWord (p : Params) (n : Nat) : (capWord p).getLsbD n =
    (decide (n = 2) && p.hostLe || decide (n = 1) && p.cap256 || decide (n = 0) && p.cap128) := by
  simp only [capWord, BitVec.getLsbD_or, BitVec.getLsbD_shiftLeft, BitVec.getLsbD_setWidth, BitVec.getLsbD_ofBool]
  grind

/-- Settles O9. -/
theorem capIsHardwired : Obligations.CapIsHardwired := by
  refine ⟨fun p => ⟨?_, ?_, ?_, fun n hn => ?_⟩, fun s hb => ?_, fun s v hb => ?_⟩
  · rw [getLsbD_capWord]; simp
  · rw [getLsbD_capWord]; simp
  · rw [getLsbD_capWord]; simp
  · have : n ≠ 0 ∧ n ≠ 1 ∧ n ≠ 2 := by omega
    rw [getLsbD_capWord]; simp [this]
  · simp [readRegister, whenNotBusy_of_not_busy hb]
  · simp [writeRegister, whenNotBusy_of_not_busy hb]

/-! ### The register map -/

theorem descriptorLane_of_lane (i : Lane) : descriptorLane (0x10 + i.val) = some i := by
  simp [descriptorLane]

/-- Numbers outside `0x10 .. 0x17` are no descriptor's (R40). -/
theorem descriptorLane_eq_none {n : Nat} (h : n < 0x10 ∨ 0x18 ≤ n) : descriptorLane n = none := by
  unfold descriptorLane
  split
  · exact if_neg (by omega)
  · rfl

section Registers

variable {s t : State} {n : Nat} {i : Lane}

theorem readRegister_of_missing (h : 4 ≤ n) (hn : descriptorLane n = none) (s : State) :
    readRegister n s = .refused (.noSuchRegister n) := by
  have : n ≠ 0 ∧ n ≠ 1 ∧ n ≠ 2 ∧ n ≠ 3 := by omega
  simp [readRegister, this, hn]

theorem writeRegister_of_missing (h : 4 ≤ n) (hn : descriptorLane n = none) (v : BitVec 64) (s : State) :
    writeRegister n v s = .refused (.noSuchRegister n) := by
  have : n ≠ 0 ∧ n ≠ 1 ∧ n ≠ 2 ∧ n ≠ 3 := by omega
  simp [writeRegister, this, hn]

theorem writeRegister_descriptor (h : s.busy = false) (i : Lane) (v : BitVec 64) :
    writeRegister (0x10 + i.val) v s = .next { s with srcDesc := s.srcDesc.set i (some v) } := by
  have : 0x10 + i.val ≠ 0 ∧ 0x10 + i.val ≠ 1 ∧ 0x10 + i.val ≠ 2 ∧ 0x10 + i.val ≠ 3 := by omega
  simp only [writeRegister, this, descriptorLane_of_lane, whenNotBusy_of_not_busy h, if_false, false_or]

theorem readRegister_descriptor (h : s.busy = false) {v : BitVec 64} (hv : s.srcDesc[i] = some v) :
    readRegister (0x10 + i.val) s = .next (s.give v) := by
  have : 0x10 + i.val ≠ 0 ∧ 0x10 + i.val ≠ 1 ∧ 0x10 + i.val ≠ 2 ∧ 0x10 + i.val ≠ 3 := by omega
  simp only [readRegister, this, descriptorLane_of_lane, whenNotBusy_of_not_busy h, hv, withValue_some, if_false]

/-- A host write of any register but `CMD` changes a descriptor or nothing (R38, R39). -/
theorem writeRegister_eq {v : BitVec 64} (hn : n ≠ 0) (h : writeRegister n v s = .next t) :
    t = { s with srcDesc := t.srcDesc } := by
  unfold writeRegister at h
  rw [if_neg hn] at h
  split at h
  · cases h
  · split at h
    · cases (whenNotBusy_eq_next.1 h).2; rfl
    · split at h
      · cases (whenNotBusy_eq_next.1 h).2; rfl
      · cases h

/-- A write of `CMD` that goes through latches the word, whatever the command then does (R40; log entry 21). -/
theorem writeCommand_cmd {w : BitVec 16} (h : writeCommand w s = .next t) : t.cmd = some w := by
  unfold writeCommand at h
  split at h
  · cases h
  · dsimp only at h
    split at h
    · cases h; rfl
    · split at h
      · obtain ⟨-, -, -, hcmd, -⟩ := exec_sameInputs h
        exact hcmd
      · cases h; rfl

end Registers

/-- Settles O10, register by register. -/
theorem hostRegisterMap : Obligations.HostRegisterMap := by
  refine ⟨fun n v s hn => ?missing, fun i v s hb => ?descriptor, fun v s t h => ?cmd, fun w s hb hw => ?readCmd,
    fun s => rfl, fun n v s hn => ?readOnly⟩
  case missing =>
    have hnone : descriptorLane n = none := descriptorLane_eq_none (by omega)
    have h4 : 4 ≤ n := by omega
    exact ⟨readRegister_of_missing h4 hnone s, writeRegister_of_missing h4 hnone v s⟩
  case descriptor =>
    refine ⟨writeRegister_descriptor hb i v, fun t ht => ?_⟩
    cases (writeRegister_descriptor hb i v).symm.trans ht
    have hread : (s.srcDesc.set i (some v))[i] = some v := by rw [perLane_getElem_set, if_pos rfl]
    exact readRegister_descriptor (s := { s with srcDesc := s.srcDesc.set i (some v) }) hb hread
  case cmd => exact writeCommand_cmd h
  case readCmd => simp [readRegister, whenNotBusy_of_not_busy hb, hw]
  case readOnly => obtain rfl | rfl := hn <;> rfl

/-! ### What a host read rests on -/

theorem sameOutcome_withValue_give {n : Nat} (e : Element) (v : Option (BitVec n)) (s t : State) :
    SameOutcome (withValue e v fun x => .next (s.give x)) (withValue e v fun x => .next (t.give x)) := by
  cases v with
  | none => exact rfl
  | some x => exact rfl

theorem sameOutcome_whenNotBusy {s t : State} {r r' : Result} (hb : t.busy = s.busy) (h : SameOutcome r r') :
    SameOutcome (whenNotBusy s r) (whenNotBusy t r') := by
  unfold whenNotBusy
  rw [hb]
  split
  · exact rfl
  · exact h

/-- What the outcome of a register read rests on (R40, R41). -/
theorem sameOutcome_readRegister {n : Nat} {s t : State} (hparams : t.params = s.params) (hstatus : t.status = s.status)
    (hcmd : t.cmd = s.cmd) (hlen : t.outLen = s.outLen) (hdesc : t.srcDesc = s.srcDesc) :
    SameOutcome (readRegister n s) (readRegister n t) := by
  have hbusy : t.busy = s.busy := by simp only [State.busy, hstatus]
  have hdone : t.isDone = s.isDone := by simp only [State.isDone, hstatus]
  unfold readRegister
  rw [hparams, hstatus, hcmd, hlen, hdesc, hdone]
  split
  · exact rfl
  · split
    · exact sameOutcome_whenNotBusy hbusy (sameOutcome_withValue_give ..)
    · split
      · exact sameOutcome_whenNotBusy hbusy rfl
      · split
        · exact sameOutcome_withValue_give ..
        · split
          · exact sameOutcome_whenNotBusy hbusy (sameOutcome_withValue_give ..)
          · exact rfl

/-- A byte of `OUT` has a value for the host in `DONE`, in the lanes of `CTX.K` and below `OUTLEN`, and nowhere else
(R37, R230). -/
theorem outByte?_eq_some_iff {s : State} {i : Lane} {p : Nat} {b : Byte} : outByte? s i p = some b ↔
    s.isDone = true ∧ ∃ k n bs, s.ctx.map CommandContext.k = some k ∧ s.outLen = some n ∧ s.out[i] = some bs ∧
      i.val < k.lanes ∧ p < n.toNat ∧ bs[p]? = some b := by
  unfold outByte?
  split
  · rename_i c n bs hdone hctx hlen hout
    simp [hdone, hctx, hlen, hout, and_assoc]
  · rename_i hno
    constructor
    · intro h; cases h
    · rintro ⟨hdone, k, n, bs, hk, hlen, hout, -⟩
      obtain ⟨c, hctx, -⟩ := Option.map_eq_some_iff.1 hk
      exact (hno c n bs hdone hctx hlen hout).elim

/-- What a byte of `OUT` rests on: of the elements the host cannot read, `CTX.K` alone (R37, R41). -/
theorem outByte?_congr {s t : State} (hstatus : t.status = s.status) (hlen : t.outLen = s.outLen) (hout : t.out = s.out)
    (hk : t.ctx.map CommandContext.k = s.ctx.map CommandContext.k) (i : Lane) (p : Nat) :
    outByte? t i p = outByte? s i p := by
  have hdone : t.isDone = s.isDone := by simp only [State.isDone, hstatus]
  exact Option.ext fun b => by simp only [outByte?_eq_some_iff, hdone, hlen, hout, hk]

/-- A host move other than a write of `CMD`, a reset and the core's own turn changes host elements only (R41). -/
theorem hostStep_eq {m : HostMove} {rest : List HostMove} {s t : State} (hcmd : ∀ v, m ≠ .writeReg 0 v)
    (hreset : m ≠ .reset) (hpass : m ≠ .pass) (hawait : m ≠ .await) (h : hostStep m rest s = .next t) :
    t = { s with srcDesc := t.srcDesc, src := t.src, host := t.host, hostData := t.hostData } := by
  cases m with
  | writeReg n v => rw [writeRegister_eq (fun hn => hcmd v (by rw [hn])) h]
  | readReg n => rw [readRegister_eq h]
  | writeSource i p b =>
    obtain ⟨-, h⟩ := whenNotBusy_eq_next.1 h
    split at h <;> cases h
    rfl
  | readOut i p => rw [eq_of_withValue_give h]
  | reset => exact absurd rfl hreset
  | pass => exact absurd rfl hpass
  | await => exact absurd rfl hawait

/-- Settles O12. -/
theorem privateStateIsPrivate : Obligations.PrivateStateIsPrivate := by
  refine ⟨fun s t m rest hissue hhost hcmd hreset hpass hawait h => ?_,
    fun n s t => sameOutcome_readRegister, fun i p s t hstatus hlen hout hk => ?_⟩
  · simp only [step, hissue, hhost] at h
    rw [hostStep_eq hcmd hreset hpass hawait h]
    exact ⟨rfl, rfl, rfl, rfl, rfl, rfl, rfl, rfl, rfl⟩
  · unfold readOutByte
    rw [outByte?_congr hstatus hlen hout hk]
    exact sameOutcome_withValue_give ..

/-! ### `OUT` and `OUTLEN` -/

theorem readOutByte_of_none {s : State} {i : Lane} {p : Nat} (h : ∀ b, outByte? s i p ≠ some b) :
    readOutByte i p s = .fault (.noValue (.out i)) := by
  rw [readOutByte, Option.eq_none_iff_forall_ne_some.2 h, withValue_none]

/-- Settles O13, from `outByte?_eq_some_iff`. -/
theorem outputValidity : Obligations.OutputValidity := by
  intro s i p
  refine ⟨fun c n bs hdone hctx hlen hout hle hi hp => ?valid, fun hdone => ?notDone, fun c hctx hi => ?lane,
    fun n hlen hp => ?offset⟩
  case valid =>
    have hbyte : bs[p]? = some (bs.getD p 0) := by simp [hp.trans_le hle]
    have hout : outByte? s i p = some (bs.getD p 0) :=
      outByte?_eq_some_iff.2 ⟨hdone, c.k, n, bs, by rw [hctx]; rfl, hlen, hout, hi, hp, hbyte⟩
    constructor
    · rw [readOutByte, hout]; rfl
    · simp [readRegister, hdone, hlen, State.give]
  case notDone => exact ⟨readOutByte_of_not_done hdone i p, readOutLen_of_not_done hdone⟩
  case lane =>
    refine readOutByte_of_none fun b hb => ?_
    obtain ⟨-, k, n, bs, hk, -, -, hlt, -⟩ := outByte?_eq_some_iff.1 hb
    obtain rfl : c.k = k := by simpa [hctx] using hk
    omega
  case offset =>
    refine readOutByte_of_none fun b hb => ?_
    obtain ⟨-, k, n', bs, -, hlen', -, -, hlt, -⟩ := outByte?_eq_some_iff.1 hb
    cases hlen.symm.trans hlen'
    omega

end Sys2Proof.Machine

/-! PROOF. Word and byte conversion (20_memory rule R52): a little-endian string is a number's digits in base 256, lowest
first, and a big-endian string is a little-endian one reversed. -/

namespace Sys2Proof.Machine

/-! ### Little-endian -/

theorem two_pow_eight_mul (n : Nat) : 2 ^ (8 * n) = 256 ^ n := Nat.pow_mul 2 8 n

theorem leNat_eq_ofDigits (bs : List Byte) : leNat bs = Nat.ofDigits 256 (bs.map BitVec.toNat) := by
  induction bs with
  | nil => rfl
  | cons b bs ih =>
    rw [List.map_cons, Nat.ofDigits_cons, ← ih, Nat.mul_comm]
    rfl

/-- A string of `n` bytes fills `n` bytes and no more (R52). -/
theorem leNat_lt (bs : List Byte) : leNat bs < 2 ^ (8 * bs.length) := by
  have h : Nat.ofDigits 256 (bs.map BitVec.toNat) < 256 ^ (bs.map BitVec.toNat).length :=
    Nat.ofDigits_lt_base_pow_length (by decide) (List.forall_mem_map.2 fun b _ => b.isLt)
  rwa [← leNat_eq_ofDigits, List.length_map, ← two_pow_eight_mul] at h

/-- Strings of one length that spell one number are the same. -/
theorem eq_of_leNat_eq {bs bs' : List Byte} (hl : bs.length = bs'.length) (h : leNat bs = leNat bs') : bs = bs' := by
  rw [leNat_eq_ofDigits, leNat_eq_ofDigits] at h
  have digits := Nat.ofDigits_inj_of_len_eq (by decide) (by simpa using hl)
    (List.forall_mem_map.2 fun b _ => b.isLt) (List.forall_mem_map.2 fun b _ => b.isLt) h
  exact List.map_injective_iff.2 (fun _ _ => BitVec.eq_of_toNat_eq) digits

/-- The sum of R52. -/
theorem leNat_eq_sum (bs : List Byte) :
    leNat bs = ((List.range bs.length).map fun p => byteAt bs p * 2 ^ (8 * p)).sum := by
  induction bs with
  | nil => rfl
  | cons b bs ih =>
    have hshift (p : Nat) : byteAt (b :: bs) (p + 1) * 2 ^ (8 * (p + 1)) = byteAt bs p * 2 ^ (8 * p) * 256 := by
      rw [Nat.mul_succ, Nat.pow_add, ← Nat.mul_assoc]
      rfl
    rw [List.length_cons, List.range_succ_eq_map, List.map_cons, List.sum_cons, List.map_map]
    simp only [Function.comp_def, Nat.succ_eq_add_one, hshift, List.sum_map_mul_right, ← ih]
    simp [leNat, byteAt]

theorem toNat_byteOfWord {w : Nat} (x : BitVec w) (p : Nat) : (byteOfWord x p).toNat = x.toNat / 2 ^ (8 * p) % 256 := by
  rw [byteOfWord, BitVec.extractLsb'_toNat, Nat.shiftRight_eq_div_pow]

/-- The low `n` bytes of a word spell the word modulo `2^(8n)`. -/
theorem leNat_bytesOfWord {w : Nat} (x : BitVec w) (n : Nat) : leNat (bytesOfWord .little n x) = x.toNat % 2 ^ (8 * n) := by
  induction n with
  | zero => simp [bytesOfWord, leNat, Nat.mod_one]
  | succ n ih =>
    have happend : bytesOfWord .little (n + 1) x = bytesOfWord .little n x ++ [byteOfWord x n] := by
      simp [bytesOfWord, List.range_succ]
    rw [leNat_eq_ofDigits] at ih
    rw [happend, leNat_eq_ofDigits, List.map_append, Nat.ofDigits_append, ih, List.length_map, bytesOfWord_length,
      List.map_singleton, Nat.ofDigits_singleton, toNat_byteOfWord, two_pow_eight_mul, two_pow_eight_mul, Nat.mod_pow_succ]

/-! ### Big-endian -/

theorem beNat_eq_leNat_reverse (bs : List Byte) : beNat bs = leNat bs.reverse := by
  simp only [beNat, leNat, List.foldr_reverse, Nat.add_comm]

/-- Counting the indices down is reversing. -/
theorem map_range_reflect {α : Type} (f : Nat → α) (n : Nat) :
    (List.range n).map (fun p => f (n - 1 - p)) = ((List.range n).map f).reverse := by
  have h := List.reverse_range' (s := 0) (n := n)
  rw [← List.range_eq_range', Nat.zero_add] at h
  rw [← List.map_reverse, h, List.map_map]
  rfl

theorem bytesOfWord_big_eq_reverse {w : Nat} (x : BitVec w) (n : Nat) :
    bytesOfWord .big n x = (bytesOfWord .little n x).reverse := map_range_reflect (byteOfWord x) n

theorem wordOfBytes_big_eq_reverse (w : Nat) (bs : List Byte) :
    wordOfBytes .big w bs = wordOfBytes .little w bs.reverse := by
  simp only [wordOfBytes, beNat_eq_leNat_reverse]

theorem byteAt_reverse {bs : List Byte} {p : Nat} (hp : p < bs.length) :
    byteAt bs.reverse (bs.length - 1 - p) = byteAt bs p := by
  have hq : bs.length - 1 - p < bs.length := by omega
  have hback : bs.length - 1 - (bs.length - 1 - p) = p := by omega
  simp only [byteAt, List.getD_eq_getElem?_getD, List.getElem?_reverse hq, hback]

/-- The sum of R52, most significant byte first. -/
theorem beNat_eq_sum (bs : List Byte) :
    beNat bs = ((List.range bs.length).map fun p => byteAt bs p * 2 ^ (8 * (bs.length - 1 - p))).sum := by
  rw [beNat_eq_leNat_reverse, leNat_eq_sum, List.length_reverse, ← List.sum_reverse, ← map_range_reflect]
  congr 1
  refine List.map_congr_left fun p hp => ?_
  rw [byteAt_reverse (List.mem_range.1 hp)]

/-! ### The conversions and their inverses -/

theorem toNat_wordOfBytes_little {bs : List Byte} {n : Nat} (h : bs.length = n) :
    (wordOfBytes .little (8 * n) bs).toNat = leNat bs := by
  subst h
  rw [wordOfBytes, BitVec.toNat_ofNat, Nat.mod_eq_of_lt (leNat_lt bs)]

theorem toNat_wordOfBytes_big {bs : List Byte} {n : Nat} (h : bs.length = n) :
    (wordOfBytes .big (8 * n) bs).toNat = beNat bs := by
  rw [wordOfBytes_big_eq_reverse, toNat_wordOfBytes_little (by rw [List.length_reverse, h]), beNat_eq_leNat_reverse]

theorem wordOfBytes_bytesOfWord (o : ByteOrder) {n : Nat} (x : BitVec (8 * n)) :
    wordOfBytes o (8 * n) (bytesOfWord o n x) = x := by
  have little : wordOfBytes .little (8 * n) (bytesOfWord .little n x) = x := by
    apply BitVec.eq_of_toNat_eq
    rw [toNat_wordOfBytes_little (bytesOfWord_length ..), leNat_bytesOfWord, Nat.mod_eq_of_lt x.isLt]
  cases o with
  | little => exact little
  | big => rw [wordOfBytes_big_eq_reverse, bytesOfWord_big_eq_reverse, List.reverse_reverse, little]

theorem bytesOfWord_wordOfBytes (o : ByteOrder) {bs : List Byte} {n : Nat} (h : bs.length = n) :
    bytesOfWord o n (wordOfBytes o (8 * n) bs) = bs := by
  have little {bs : List Byte} (h : bs.length = n) : bytesOfWord .little n (wordOfBytes .little (8 * n) bs) = bs := by
    refine eq_of_leNat_eq (by rw [bytesOfWord_length, h]) ?_
    rw [leNat_bytesOfWord, Nat.mod_eq_of_lt (BitVec.isLt _), toNat_wordOfBytes_little h]
  cases o with
  | little => exact little h
  | big =>
    rw [wordOfBytes_big_eq_reverse, bytesOfWord_big_eq_reverse, little (by rw [List.length_reverse, h]),
      List.reverse_reverse]

/-- Settles O15: base 256, and its reversal. -/
theorem byteConversions : Obligations.ByteConversions := by
  intro n
  refine ⟨fun bs h => ⟨?bigSum, ?littleSum⟩, fun x p hp => ⟨?bigByte, ?littleByte⟩,
    fun o => ⟨fun x => ⟨bytesOfWord_length .., wordOfBytes_bytesOfWord o x⟩, fun bs => bytesOfWord_wordOfBytes o⟩⟩
  case bigSum => rw [toNat_wordOfBytes_big h, beNat_eq_sum, h]
  case littleSum => rw [toNat_wordOfBytes_little h, leNat_eq_sum, h]
  case bigByte => rw [← toNat_byteOfWord]; simp [bytesOfWord, hp]
  case littleByte => rw [← toNat_byteOfWord]; simp [bytesOfWord, hp]

end Sys2Proof.Machine

/-! PROOF. The host's reads, its change of a source byte and what it may not do (10_state rules R50, R58;
70_reset_and_hazards rules R225 to R229). -/

namespace Sys2Proof.Machine

/-- With no word at the issue point the host's next move is the step (R228). -/
theorem step_eq_hostStep {s : State} {m : HostMove} {rest : List HostMove} (hissue : s.issue = none)
    (hhost : s.host = m :: rest) : step s = hostStep m rest s := by
  simp only [step, hissue, hhost]

/-- Settles O11: the byte space obeys `readByte_writeByte_same` and `readByte_writeByte_other`. -/
theorem hostReadsAndSourceWrites : Obligations.HostReadsAndSourceWrites := by
  refine ⟨fun n s t => readRegister_eq, fun i p s t => eq_of_withValue_give,
    fun s i p b rest hissue hhost hbusy hwf => ?_⟩
  have hstep : step s = if p < sourceSpace then
      .next { s with src := writeByte s.src (sourceAddress i p) b, host := rest } else .fault (.sourceOffset i) :=
    (step_eq_hostStep hissue hhost).trans (writeSourceByte_of_not_busy (s := { s with host := rest }) hbusy i p b)
  refine ⟨fun hp => ?inside, fun hp => ?beyond⟩
  case inside =>
    exact ⟨_, hstep.trans (if_pos hp), wf_writeByte hwf .., readByte_writeByte_same hwf ..,
      fun j q hq hne => readByte_writeByte_other (sourceAddress_ne hp hq hne) b⟩
  case beyond => exact hstep.trans (if_neg hp.not_gt)

/-! ### Moves while a command runs -/

section Busy

variable {s : State}

theorem whenNotBusy_of_busy (h : s.busy = true) (r : Result) : whenNotBusy s r = .refused .hostWhileBusy := by
  simp [whenNotBusy, h]

theorem writeRegister_cmd_of_busy (h : s.busy = true) (v : BitVec 64) :
    writeRegister 0 v s = .refused .commandWhileBusy := by
  simp [writeRegister, writeCommand, h]

/-- No register takes a write while a command runs (R227, R228). -/
theorem writeRegister_of_busy (h : s.busy = true) (n : Nat) (v : BitVec 64) : ∃ e, writeRegister n v s = .refused e := by
  unfold writeRegister
  split
  · exact ⟨.commandWhileBusy, if_pos h⟩
  · split
    · exact ⟨_, rfl⟩
    · split
      · exact ⟨_, whenNotBusy_of_busy h _⟩
      · split
        · exact ⟨_, whenNotBusy_of_busy h _⟩
        · exact ⟨_, rfl⟩

/-- Of the registers only `STATUS` and `OUTLEN` are not refused to a read while a command runs (R228). -/
theorem readRegister_of_busy (h : s.busy = true) {n : Nat} (hstatus : n ≠ 1) (hlen : n ≠ 3) :
    ∃ e, readRegister n s = .refused e := by
  simp only [readRegister, hstatus, hlen, if_false, whenNotBusy_of_busy h]
  split
  · exact ⟨_, rfl⟩
  · split
    · exact ⟨_, rfl⟩
    · split <;> exact ⟨_, rfl⟩

/-- A host move upon the core, other than a read that R229 allows, is refused while a command runs. -/
theorem hostStep_of_busy {m : HostMove} {rest : List HostMove} (h : s.busy = true) (hstatus : m ≠ .readReg 1)
    (hlen : m ≠ .readReg 3) (hout : ∀ i p, m ≠ .readOut i p) (hreset : m ≠ .reset) (hpass : m ≠ .pass)
    (hawait : m ≠ .await) : ∃ e, hostStep m rest s = .refused e := by
  have hrest : { s with host := rest }.busy = true := h
  cases m with
  | writeReg n v => exact writeRegister_of_busy hrest n v
  | readReg n =>
    exact readRegister_of_busy hrest (fun hn => hstatus (by rw [hn])) (fun hn => hlen (by rw [hn]))
  | writeSource i p b => exact ⟨_, whenNotBusy_of_busy hrest _⟩
  | readOut i p => exact absurd rfl (hout i p)
  | reset => exact absurd rfl hreset
  | pass => exact absurd rfl hpass
  | await => exact absurd rfl hawait

end Busy

/-! ### Descriptors that were never written -/

/-- The lanes of a call before one of its lanes are the lower ones (R20). -/
theorem laneList_split {k : LaneCount} {i : Lane} (hi : i.val < k.lanes) :
    ∃ pre post, k.laneList = pre ++ i :: post ∧ ∀ j ∈ pre, j.val < i.val := by
  obtain ⟨pre, post, hsplit⟩ := List.append_of_mem (mem_laneList.2 hi)
  have hsorted := laneList_pairwise k
  rw [hsplit, List.pairwise_append] at hsorted
  obtain ⟨-, -, hbefore⟩ := hsorted
  exact ⟨pre, post, hsplit, fun j hj => hbefore j hj i (by simp)⟩

/-- The first lane without a descriptor stops the check, if those before it pass (R171; log entry 18). -/
theorem checkDescriptors_unwritten_of_first {s : State} {i : Lane} (hi : s.srcDesc[i] = none) (post : List Lane)
    {pre : List Lane} (hpre : ∀ j ∈ pre, ∃ d, s.srcDesc[j] = some d ∧ descTooLong d = false) :
    checkDescriptors s (pre ++ i :: post) = .unwritten i := by
  induction pre with
  | nil => simp only [List.nil_append, checkDescriptors, hi]
  | cons j pre ih =>
    obtain ⟨d, hd, hl⟩ := hpre j (by simp)
    simpa [checkDescriptors, hd, hl] using ih fun j hj => hpre j (by simp [hj])

/-- Accept of a legal command whose other checks pass is refused at its lowest lane without a descriptor (R225). -/
theorem acceptCommand_of_unwritten {op : Op} {a : Alg} {k : LaneCount} {s : State} {i : Lane} (hb : s.busy = false)
    (hform : formOk op a k 0 = true) (hpre : precondition op a k s.params = none) (hik : i.val < k.lanes)
    (hi : s.srcDesc[i] = none)
    (hlow : ∀ j : Lane, j.val < i.val → ∃ d, s.srcDesc[j] = some d ∧ descriptorOk d) :
    acceptCommand op a k s = .refused (.descriptorUnwritten i) := by
  obtain ⟨pre, post, hsplit, hbelow⟩ := laneList_split hik
  have hcheck : checkDescriptors { s.beginCommand with ctx := some ⟨a, k⟩ } k.laneList = .unwritten i := by
    rw [hsplit]
    refine checkDescriptors_unwritten_of_first (s := { s.beginCommand with ctx := some ⟨a, k⟩ }) hi post fun j hj => ?_
    obtain ⟨d, hd, hok⟩ := hlow j (hbelow j hj)
    exact ⟨d, hd, descTooLong_of_descriptorOk hok⟩
  simp only [acceptCommand, hb, hform, hpre, hcheck, Bool.false_eq_true, not_true_eq_false, if_false]

/-- A lane count whose capability is asked for has the width of a vector register (R77). -/
theorem formOk_hashpar_of_width {a : Alg} {k : LaneCount} (h : vectorBits a k = 128 ∨ vectorBits a k = 256) :
    formOk .hashpar a k 0 = true := by
  obtain h | h := h <;> simp [formOk, laneCountOk, laneOk, laneCountLegal, h]

/-- Settles O22: a busy core move by move, an unwritten descriptor by `acceptCommand_of_unwritten`. -/
theorem hostContractRefusals : Obligations.HostContractRefusals := by
  refine ⟨fun s m rest hissue hhost hbusy hstatus hlen hout hreset hpass hawait => ?moves,
    fun s rest hissue hbusy => ⟨fun hhost => ?readOutLen, fun i p hhost => ?readOut⟩,
    fun v s hbusy => writeRegister_cmd_of_busy hbusy v, fun a s hb hd => ?hash,
    fun a k s i hb hcap hle hik hd hlow => ?hashpar⟩
  case moves =>
    rw [step_eq_hostStep hissue hhost]
    exact hostStep_of_busy hbusy hstatus hlen hout hreset hpass hawait
  case readOutLen =>
    rw [step_eq_hostStep hissue hhost]
    exact readOutLen_of_not_done (s := { s with host := rest }) (isDone_of_busy hbusy)
  case readOut =>
    rw [step_eq_hostStep hissue hhost]
    exact readOutByte_of_not_done (s := { s with host := rest }) (isDone_of_busy hbusy) i p
  case hash =>
    rw [exec_hash, acceptHash]
    exact acceptCommand_of_unwritten hb rfl rfl (by decide) hd fun j hj => absurd hj (Nat.not_lt_zero _)
  case hashpar =>
    rw [exec_hashpar, acceptHashpar]
    exact acceptCommand_of_unwritten hb (formOk_hashpar_of_width (hcap.imp And.left And.left))
      (precondition_hashpar_eq_none hcap hle) hik hd hlow

end Sys2Proof.Machine

/-! PROOF. Which micro-operation writes what (20_memory rule R51). -/

namespace Sys2Proof.Machine

/-- `t` is `s` after a write of what R51 lists the operation as a writer of, in lane `i` where the element has lanes. -/
inductive OwnWrite (i : Lane) (s : State) : Op → State → Prop where
  | prep (b : List Byte) (c : StreamContext) : OwnWrite i s .prep (s.afterPrep i b c)
  | sched (x : WordArray) : OwnWrite i s .sched { s with w := some x }
  | pack (x : VectorArray) : OwnWrite i s .pack { s with lw := some x }
  | initl (x : VectorArray) : OwnWrite i s .initl { s with ls := some x }
  | compl (x : VectorArray) : OwnWrite i s .compl { s with ls := some x }
  | inits (x : WordArray) : OwnWrite i s .inits (s.setDigest i x)
  | snap (x : WordArray) : OwnWrite i s .snap (s.setDigest i x)
  | comp (x : WordArray) : OwnWrite i s .comp (s.setDigest i x)
  | final (bs : List Byte) : OwnWrite i s .final { s with out := s.out.set i (some bs) }

/-- Everything a micro-operation can do to the state: an internal error, or its own write. -/
theorem micro_ownWrite {op : Op} {a : Alg} {k : LaneCount} {i : Lane} {s t : State} (hop : op.isCommand = false)
    (h : exec (.ofFields op a k i) s = .next t) : (∃ e, t = s.raiseInternal e) ∨ OwnWrite i s op t := by
  cases op
  case hash => cases hop
  case hashpar => cases hop
  case inits =>
    rw [exec_inits, initScalar, microOperation_eq_next] at h
    cases h.2; exact .inr (.inits _)
  case initl =>
    rw [exec_initl, initLanes, microOperation_eq_next] at h
    cases h.2; exact .inr (.initl _)
  case prep =>
    obtain ⟨c, -, ⟨-, rfl⟩ | ⟨-, b, c', -, rfl⟩⟩ := prep_cases h
    · exact .inl ⟨_, rfl⟩
    · exact .inr (.prep b c')
  case sched =>
    simp only [exec_sched, buildSchedule, microOperation_eq_next, withValue_eq_next] at h
    obtain ⟨-, b, -, h⟩ := h
    split at h <;> cases h
    · exact .inr (.sched _)
    · exact .inl ⟨_, rfl⟩
  case comp =>
    simp only [exec_comp, compressScalar, microOperation_eq_next, withDigest, withValue_eq_next] at h
    obtain ⟨-, x, -, y, -, h⟩ := h
    split at h <;> cases h
    · exact .inr (.comp _)
    · exact .inl ⟨_, rfl⟩
  case pack =>
    rw [exec_pack, packLanes, microOperation_eq_next] at h
    obtain ⟨-, h⟩ := h
    split at h
    · cases h
    · split at h <;> cases h
      · exact .inr (.pack _)
      · exact .inl ⟨_, rfl⟩
  case compl =>
    simp only [exec_compl, compressLanes, microOperation_eq_next, withLaneState, withValue_eq_next] at h
    obtain ⟨-, x, -, y, -, h⟩ := h
    split at h <;> cases h
    · exact .inr (.compl _)
    · exact .inl ⟨_, rfl⟩
  case snap =>
    simp only [exec_snap, snapshotLane, microOperation_eq_next, withLaneState, withValue_eq_next] at h
    obtain ⟨-, x, -, h⟩ := h
    cases h; exact .inr (.snap _)
  case final =>
    obtain ⟨bs, rfl⟩ := final_cases h
    exact .inr (.final bs)

section OwnWrite

variable {i : Lane} {s t : State} {op : Op}

/-- Whole elements an operation does not write are as before (R51). -/
theorem OwnWrite.elements (h : OwnWrite i s op t) :
    (op ≠ .prep → t.sc = s.sc ∧ t.newDone = s.newDone ∧ t.blk = s.blk) ∧ (op ≠ .sched → t.w = s.w) ∧
      (op ≠ .pack → t.lw = s.lw) ∧ (op ≠ .initl → op ≠ .compl → t.ls = s.ls) ∧
      (op ≠ .inits → op ≠ .snap → op ≠ .comp → t.dig = s.dig) ∧ (op ≠ .final → t.out = s.out) := by
  cases h <;> simp [State.afterPrep]

/-- The other lanes are as before, whichever operation writes. -/
theorem OwnWrite.other_lane (h : OwnWrite i s op t) {l : Lane} (hl : l ≠ i) :
    t.sc[l] = s.sc[l] ∧ t.newDone[l] = s.newDone[l] ∧ t.blk[l] = s.blk[l] ∧ t.dig[l] = s.dig[l] ∧ t.out[l] = s.out[l] := by
  cases h <;> simp only [State.afterPrep, State.setDigest, perLane_getElem_set, if_neg hl, and_self]

theorem OwnWrite.outLen_eq (h : OwnWrite i s op t) : t.outLen = s.outLen := by cases h <;> rfl

end OwnWrite

/-- Settles O47: the control and the host's side by `micro_effect`, the buffers by the operation's own write. -/
theorem onlyWritersWrite : Obligations.OnlyWritersWrite := by
  intro j s t hj h hraise
  rw [exec_eq_ofFields] at h
  obtain ⟨e, ht⟩ | hown := micro_ownWrite hj h
  · exact absurd ht (hraise e)
  obtain ⟨e, ht⟩ | ⟨hsrc, hstatus, hseq, hparams, hdesc, hcmd, hhost, hdata, hissue, hctx, -⟩ := micro_effect hj h
  · exact absurd ht (hraise e)
  obtain ⟨hprep, hsched, hpack, hls, hdig, hout⟩ := hown.elements
  exact ⟨hparams, hstatus, hseq, hctx, hown.outLen_eq, hdesc, hcmd, hsrc, hhost, hdata, hissue, hprep, hsched, hpack, hls,
    hdig, hout, fun l hl => hown.other_lane hl⟩

end Sys2Proof.Machine

/-! PROOF. The encoding (30_encoding rules R70 to R82): every word that decodes is the word of the instruction it decodes
to. -/

namespace Sys2Proof

/-! ### The fields of a word as numbers (R70) -/

section Fields

variable (w : BitVec 16)

theorem toNat_opField : (opField w).toNat = w.toNat % 16 := by simp [opField]

theorem toNat_algField : (algField w).toNat = w.toNat / 16 % 8 := by simp [algField, Nat.shiftRight_eq_div_pow]

theorem toNat_kselField : (kselField w).toNat = w.toNat / 128 % 4 := by simp [kselField, Nat.shiftRight_eq_div_pow]

theorem toNat_laneField : (laneField w).toNat = w.toNat / 512 % 8 := by simp [laneField, Nat.shiftRight_eq_div_pow]

theorem toNat_zeroField : (zeroField w).toNat = w.toNat / 4096 := by
  simp only [zeroField, BitVec.extractLsb'_toNat, Nat.shiftRight_eq_div_pow]
  omega

end Fields

/-- The five fields cover the word (R70). -/
theorem word_eq_of_fields_eq {v w : BitVec 16} (hzero : zeroField v = zeroField w) (hop : opField v = opField w)
    (halg : algField v = algField w) (hk : kselField v = kselField w) (hlane : laneField v = laneField w) : v = w := by
  have hzero := congrArg BitVec.toNat hzero
  have hop := congrArg BitVec.toNat hop
  have halg := congrArg BitVec.toNat halg
  have hk := congrArg BitVec.toNat hk
  have hlane := congrArg BitVec.toNat hlane
  simp only [toNat_zeroField, toNat_opField, toNat_algField, toNat_kselField, toNat_laneField] at hzero hop halg hk hlane
  exact BitVec.eq_of_toNat_eq (by omega)

/-! ### A field's value is the code of what it stands for (R71 to R74) -/

theorem code_of_opOfField {b : BitVec 4} {op : Op} (h : opOfField b = some op) : op.code = b := by
  revert b
  cases op <;> decide

theorem code_of_algOfField {b : BitVec 3} {a : Alg} (h : algOfField b = some a) : a.code = b := by
  revert b
  cases a <;> decide

theorem code_laneCountOfField : ∀ b : BitVec 2, (laneCountOfField b).code = b := by decide

theorem ofNat_laneOfField (b : BitVec 3) : BitVec.ofNat 3 (laneOfField b).val = b := by simp [laneOfField]

/-- Every code from 1 to 11 is an operation's (R71). -/
theorem opOfField_isSome : ∀ b : BitVec 4, 1 ≤ b.toNat → b.toNat ≤ 11 → (opOfField b).isSome = true := by decide

/-- Every code up to 5 is an algorithm's (R72). -/
theorem algOfField_isSome : ∀ b : BitVec 3, b.toNat ≤ 5 → (algOfField b).isSome = true := by decide

/-- A word whose `ZERO`, `OP` and `ALG` are in range is built from its fields (R70). -/
theorem eq_wordOfFields {w : BitVec 16} {op : Op} {a : Alg} (hzero : zeroField w = 0)
    (hop : opOfField (opField w) = some op) (ha : algOfField (algField w) = some a) :
    w = wordOfFields op a (laneCountOfField (kselField w)) (laneOfField (laneField w)) := by
  obtain ⟨hzero', hop', halg', hk', hlane'⟩ :=
    fields_wordOfFields op a (laneCountOfField (kselField w)) (laneOfField (laneField w))
  apply word_eq_of_fields_eq
  · rw [hzero, hzero']
  · rw [hop', code_of_opOfField hop]
  · rw [halg', code_of_algOfField ha]
  · rw [hk', code_laneCountOfField]
  · rw [hlane', ofNat_laneOfField]

/-! ### Instructions by operation and algorithm -/

theorem exists_ofFields (j : Instr) : ∃ op a k i, j = .ofFields op a k i := ⟨_, _, _, _, (ofFields_fields j).symm⟩

/-- An operand the form does not have is 0, whatever the term was made from (R76). -/
theorem wf_ofFields (op : Op) (a : Alg) (k : LaneCount) (i : Lane) : (Instr.ofFields op a k i).wf =
    formOk op a (if op = .hash then .k1 else k) (if op.hasLane then i else 0) := by
  cases op <;> cases a <;> rfl

/-! ### The decoder and the encoder are inverse (R76, R82) -/

/-- A word decodes exactly when it is built from fields that keep their row of R76, and then to their instruction. -/
theorem decode_eq_ok_iff {w : BitVec 16} {j : Instr} :
    decode w = .ok j ↔ ∃ op a k i, w = wordOfFields op a k i ∧ formOk op a k i = true ∧ j = .ofFields op a k i := by
  constructor
  · intro h
    have hbuilt : ∃ op a k i, w = wordOfFields op a k i := by
      unfold decode at h
      split at h
      · cases h
      · rename_i hzero
        split at h
        · cases h
        · cases h
        · rename_i op a hop ha
          exact ⟨op, a, _, _, eq_wordOfFields (not_not.1 hzero) hop ha⟩
    obtain ⟨op, a, k, i, rfl⟩ := hbuilt
    exact ⟨op, a, k, i, rfl, decode_wordOfFields_eq_ok.1 h⟩
  · rintro ⟨op, a, k, i, rfl, h⟩
    exact decode_wordOfFields_eq_ok.2 h

theorem decode_encode {i : Instr} (h : i.wf = true) : decode (encode i) = .ok i :=
  decode_wordOfFields_eq_ok.2 ⟨h, (ofFields_fields i).symm⟩

theorem encode_of_decode {w : BitVec 16} {i : Instr} (h : decode w = .ok i) : i.wf = true ∧ encode i = w := by
  obtain ⟨op, a, k, l, rfl, hform, rfl⟩ := decode_eq_ok_iff.1 h
  simp [Instr.wf, encode, fields_ofFields hform, hform]

/-- Settles O1, by `decode_encode` and `encode_of_decode`. -/
theorem decodeEncodeRoundTrip : Obligations.DecodeEncodeRoundTrip :=
  ⟨fun _ => decode_encode, fun _ _ => encode_of_decode⟩

/-- Settles O4, by evaluation of the decoder and of the written form. -/
theorem decodedExamples : Obligations.DecodedExamples := by
  unfold Obligations.DecodedExamples
  decide

/-! ### The host's words (R80) -/

/-- The host's commands: `HASH` of the six algorithms and `HASHPAR` with the lane counts each has (R77, R80). -/
def hostCommands : List Instr :=
  [.hashMd5, .hashSha1, .hashSha224, .hashSha256, .hashSha384, .hashSha512,
    .hashparMd5 .k4, .hashparSha1 .k4, .hashparSha224 .k4, .hashparSha256 .k4,
    .hashparMd5 .k8, .hashparSha1 .k8, .hashparSha224 .k8, .hashparSha256 .k8,
    .hashparSha384 .k2, .hashparSha512 .k2, .hashparSha384 .k4, .hashparSha512 .k4]

theorem mem_hostCommands {i : Instr} : i ∈ hostCommands ↔ i.wf = true ∧ i.isCommand = true := by
  constructor
  · have hall : ∀ j ∈ hostCommands, j.wf = true ∧ j.isCommand = true := by decide
    exact hall i
  · rintro ⟨hwf, hcmd⟩
    obtain ⟨op, a, k, l, rfl⟩ := exists_ofFields i
    rw [isCommand_ofFields] at hcmd
    cases op
    case hash => cases a <;> simp [hostCommands, Instr.ofFields]
    case hashpar => revert l; cases a <;> cases k <;> decide
    all_goals cases hcmd

/-- Settles O3, from the round trip of the eighteen commands. -/
theorem hostCommandWords : Obligations.HostCommandWords := by
  have hzeros : decode 0x0000 = .error .reservedOp := by decide
  have hones : decode 0xFFFF = .error .zeroField := by decide
  refine ⟨fun w => ?_, fun i => by rw [hzeros]; nofun, fun i => by rw [hones]; nofun⟩
  change _ ↔ w.toNat ∈ hostCommands.map fun i => (encode i).toNat
  simp only [List.mem_map, mem_hostCommands]
  constructor
  · rintro ⟨i, hdec, hcmd⟩
    obtain ⟨hwf, rfl⟩ := encode_of_decode hdec
    exact ⟨i, ⟨hwf, hcmd⟩, rfl⟩
  · rintro ⟨i, ⟨hwf, hcmd⟩, heq⟩
    obtain rfl := BitVec.eq_of_toNat_eq heq
    exact ⟨i, decode_encode hwf, hcmd⟩

/-! ### Legality read off the number (R76, R79) -/

/-- R77 as the numbers of the word say it: the 32-bit algorithms have 4 and 8 lanes, the 64-bit ones 2 and 4. -/
theorem laneCountLegal_eq_codes (a : Alg) (k : LaneCount) : laneCountLegal a k =
    if a.code.toNat ≤ 3 then k.code.toNat == 2 || k.code.toNat == 3 else k.code.toNat == 1 || k.code.toNat == 2 := by
  cases a <;> cases k <;> rfl

theorem not_laneCountLegal_eq_codes (a : Alg) (k : LaneCount) : (!laneCountLegal a k) =
    (k.code.toNat == 0 || (decide (a.code.toNat ≤ 3) && k.code.toNat == 1) ||
      (decide (4 ≤ a.code.toNat) && k.code.toNat == 3)) := by
  cases a <;> cases k <;> rfl

theorem lanes_eq_two_pow_code (k : LaneCount) : k.lanes = 2 ^ k.code.toNat := by cases k <;> rfl

theorem algCode_le (a : Alg) : a.code.toNat ≤ 5 := by cases a <;> decide

theorem laneCode_beq_zero (k : LaneCount) : (k.code.toNat == 0) = (k == .k1) := by cases k <;> rfl

theorem lane_beq_zero : ∀ i : Lane, (i.val == 0) = (i == 0) := by decide

section Numbers

open Machine

variable (op : Op) (a : Alg) (k : LaneCount) (i : Lane)

/-- The numbers a built word divides into are the codes it was built from (R70). -/
theorem numbers_wordOfFields : (wordOfFields op a k i).toNat / 4096 = 0 ∧
    (wordOfFields op a k i).toNat % 16 = op.code.toNat ∧ (wordOfFields op a k i).toNat / 16 % 8 = a.code.toNat ∧
    (wordOfFields op a k i).toNat / 128 % 4 = k.code.toNat ∧ (wordOfFields op a k i).toNat / 512 % 8 = i.val := by
  obtain ⟨hzero, hop, halg, hk, hlane⟩ := fields_wordOfFields op a k i
  rw [← toNat_zeroField, ← toNat_opField, ← toNat_algField, ← toNat_kselField, ← toNat_laneField, hzero, hop, halg, hk,
    hlane]
  simp

theorem legalWord_wordOfFields : legalWord (wordOfFields op a k i).toNat = formOk op a k i := by
  obtain ⟨hzero, hop, halg, hk, hlane⟩ := numbers_wordOfFields op a k i
  simp only [legalWord, hzero, hop, halg, hk, hlane, ← laneCountLegal_eq_codes, ← lanes_eq_two_pow_code, algCode_le]
  cases op <;> simp [formOk, laneCountOk, laneOk, Op.code, laneCode_beq_zero, lane_beq_zero]

theorem illegalFromHost_wordOfFields :
    illegalFromHost (wordOfFields op a k i).toNat = !(op.isCommand && formOk op a k i) := by
  obtain ⟨hzero, hop, halg, hk, hlane⟩ := numbers_wordOfFields op a k i
  have hreserved : ¬ 6 ≤ a.code.toNat := by have := algCode_le a; omega
  simp only [illegalFromHost, hzero, hop, halg, hk, hlane, hreserved, bne, ← not_laneCountLegal_eq_codes]
  cases op <;> simp [formOk, laneCountOk, laneOk, Op.code, Op.isCommand, laneCode_beq_zero, lane_beq_zero]

end Numbers

/-- A word in the ranges of R71, R72 and R75 is built from fields (R70). -/
theorem exists_wordOfFields {w : BitVec 16} (hzero : w.toNat / 4096 = 0) (hop : 1 ≤ w.toNat % 16 ∧ w.toNat % 16 ≤ 11)
    (halg : w.toNat / 16 % 8 ≤ 5) : ∃ op a k i, w = wordOfFields op a k i := by
  rw [← toNat_zeroField] at hzero
  rw [← toNat_opField] at hop
  rw [← toNat_algField] at halg
  obtain ⟨op, hop⟩ := Option.isSome_iff_exists.1 (opOfField_isSome _ hop.1 hop.2)
  obtain ⟨a, ha⟩ := Option.isSome_iff_exists.1 (algOfField_isSome _ halg)
  exact ⟨op, a, _, _, eq_wordOfFields (BitVec.eq_of_toNat_eq hzero) hop ha⟩

theorem exists_wordOfFields_of_legalWord {w : BitVec 16} (h : Machine.legalWord w.toNat = true) :
    ∃ op a k i, w = wordOfFields op a k i := by
  simp only [Machine.legalWord, Bool.and_eq_true, Bool.or_eq_true, beq_iff_eq, decide_eq_true_eq] at h
  obtain ⟨⟨hzero, halg⟩, hrow⟩ := h
  exact exists_wordOfFields hzero (by omega) halg

/-- Settles O2: both sides speak of words built from fields, where they are `formOk`. -/
theorem decoderKeepsFieldTable : Obligations.DecoderKeepsFieldTable := by
  intro w
  constructor
  · intro h
    obtain ⟨op, a, k, i, rfl⟩ := exists_wordOfFields_of_legalWord h
    exact ⟨.ofFields op a k i, decode_wordOfFields_eq_ok.2 ⟨legalWord_wordOfFields op a k i ▸ h, rfl⟩⟩
  · rintro ⟨j, h⟩
    obtain ⟨op, a, k, i, rfl, hform, -⟩ := decode_eq_ok_iff.1 h
    rw [legalWord_wordOfFields, hform]

/-- What R79 calls illegal is not decoded, or is a micro-operation's word (R78). -/
theorem not_isCommand_of_illegalFromHost {w : BitVec 16} (h : Machine.illegalFromHost w.toNat = true) {j : Instr}
    (hj : decode w = .ok j) : j.isCommand = false := by
  obtain ⟨op, a, k, i, rfl, hform, rfl⟩ := decode_eq_ok_iff.1 hj
  rw [illegalFromHost_wordOfFields, hform] at h
  simpa using h

end Sys2Proof

/-! PROOF. How a word comes to run, and what an illegal one does (30_encoding rules R78, R79, R81; 44_orchestrator rules
R170, R182). -/

namespace Sys2Proof.Machine

/-! ### The issue point and the sequencer's row -/

theorem step_eq_issueWord {s : State} {w : BitVec 16} (h : s.issue = some w) :
    step s = issueWord w { s with issue := none } := by
  simp only [step, h]

/-- With nothing placed and no move of the host the step is the core's (R182). -/
theorem State.Quiet.step_eq {s : State} (h : s.Quiet) : step s = coreStep s := by
  obtain ⟨hissue, hhost⟩ := h
  simp only [step, hissue, hhost]

theorem issueWord_of_micro {w : BitVec 16} {i : Instr} (hd : decode w = .ok i) (hi : i.isCommand = false) (s : State) :
    issueWord w s = exec i s := by
  simp [issueWord, hd, hi]

theorem issueWord_of_not_legalWord {w : BitVec 16} (h : legalWord w.toNat = false) (s : State) :
    issueWord w s = .refused .illegalMicroOperation := by
  cases hd : decode w with
  | error e => simp only [issueWord, hd]
  | ok i => exact absurd ((decoderKeepsFieldTable w).2 ⟨i, hd⟩) (by simp [h])

/-- The word of a row that answers is a legal micro-operation's (R81). -/
theorem decode_word_of_takeRow {c : CommandContext} {r : SeqRow} {w : BitVec 16} {s t : State} (hw : r.word c = some w)
    (h : takeRow c r s = .next t) : ∃ i, decode w = .ok i ∧ i.isCommand = false := by
  simp only [takeRow, hw] at h
  obtain ⟨u, hu, -⟩ := andThen_eq_next.1 h
  obtain ⟨i, hd, hi, -⟩ := issueWord_eq_next.1 hu
  exact ⟨i, hd, hi⟩

theorem issuedWord_eq_some {s : State} {w : BitVec 16} (h : issuedWord s = some w) :
    ∃ c r, s.ctx = some c ∧ seqRow c.k s = .ok r ∧ r.word c = some w := by
  unfold issuedWord at h
  split at h
  · cases h
  · split at h
    · exact ⟨_, _, ‹_›, ‹_›, h⟩
    · cases h

/-- A running command never stops, so the word it issues is one that answers. -/
theorem decode_issuedWord {s : State} {w : BitVec 16} (hready : s.Ready) (hw : issuedWord s = some w) :
    ∃ i, decode w = .ok i ∧ i.isCommand = false := by
  obtain ⟨c, r, hc, hrow, hword⟩ := issuedWord_eq_some hw
  obtain ⟨t, ht, -⟩ := runningCommandNeverStops s hready
  rw [coreStep_of_row (not_terminal_of_seqRow hrow) hc hrow] at ht
  exact decode_word_of_takeRow hword ht

/-- A micro-operation term whose operands break R76 is refused by name (R81; log entry 17). -/
theorem exec_of_not_wf {j : Instr} (hj : j.isCommand = false) (h : j.wf = false) (s : State) :
    exec j s = .refused .illegalMicroOperation := by
  obtain ⟨op, a, k, i, rfl⟩ := exists_ofFields j
  rw [isCommand_ofFields] at hj
  rw [wf_ofFields] at h
  cases op
  case hash => cases hj
  case hashpar => cases hj
  case inits => exact (exec_inits ..).trans (microOperation_of_bad h _)
  case initl => exact (exec_initl ..).trans (microOperation_of_bad h _)
  case prep => exact (exec_prep ..).trans (microOperation_of_bad h _)
  case sched => exact (exec_sched ..).trans (microOperation_of_bad h _)
  case comp => exact (exec_comp ..).trans (microOperation_of_bad h _)
  case pack => exact (exec_pack ..).trans (microOperation_of_bad h _)
  case compl => exact (exec_compl ..).trans (microOperation_of_bad h _)
  case snap => exact (exec_snap ..).trans (microOperation_of_bad h _)
  case final => exact (exec_final ..).trans (microOperation_of_bad h _)

/-- Settles O5: the words issued by the progress of a running command, the words placed by the field table, the terms by the
check each micro-operation makes. -/
theorem illegalMicroOperationRefused : Obligations.IllegalMicroOperationRefused :=
  ⟨fun _ _ => decode_issuedWord,
    fun _ _ hissue hw => (step_eq_issueWord hissue).trans (issueWord_of_not_legalWord hw _),
    fun _ s hi hwf => exec_of_not_wf hi hwf s⟩

/-! ### The host's write of `CMD` -/

theorem writeCommand_of_command {w : BitVec 16} {i : Instr} {s : State} (hb : s.busy = false) (hd : decode w = .ok i)
    (hi : i.isCommand = true) : writeCommand w s = exec i { s with cmd := some w } := by
  simp [writeCommand, hb, hd, hi]

/-- A word that is no host command's is rejected, and latched all the same (R79; log entry 21). -/
theorem writeCommand_of_no_command {w : BitVec 16} {s : State} (hb : s.busy = false)
    (h : ∀ i, decode w = .ok i → i.isCommand = false) :
    writeCommand w s = .next (rejectCommand { s with cmd := some w }) := by
  cases hd : decode w with
  | error e => simp [writeCommand, hb, hd]
  | ok i => simp [writeCommand, hb, hd, h i hd]

/-- What rejecting a command writes (R171, R207). -/
theorem rejectCommand_eq (s : State) : rejectCommand s = { s with
    status := 0x002F
    seq := ⟨.failed, 0⟩
    out := Vector.replicate 8 none
    outLen := none } := by
  have hstatus : statusWord .failed CoreError.illegalCommand.err CoreError.illegalCommand.info = 0x002F := by decide
  rw [← hstatus]
  rfl

/-- Settles O19: no word that R79 calls illegal is a host command's, and such a word is rejected. -/
theorem illegalCommandFails : Obligations.IllegalCommandFails := by
  intro w s hb hw
  rw [writeCommand_of_no_command hb fun _ => not_isCommand_of_illegalFromHost hw, rejectCommand_eq]

/-- Settles O6, mover by mover. -/
theorem stepRunsDecodedInstruction : Obligations.StepRunsDecodedInstruction := by
  refine ⟨fun s w i hissue hd hi => ?issue, fun s v rest i hissue hhost hd hi hb => ?host,
    fun s c r m i hquiet hterm hc hrow hm hd hi => ?row⟩
  case issue => rw [step_eq_issueWord hissue, issueWord_of_micro hd hi]
  case host =>
    rw [step_eq_hostStep hissue hhost]
    exact writeCommand_of_command (s := { s with host := rest }) hb hd hi
  case row =>
    rw [hquiet.step_eq, coreStep_of_row hterm hc hrow]
    simp only [takeRow, SeqRow.word, hm, Option.map_some, issueWord_of_micro hd hi]

end Sys2Proof.Machine

/-! PROOF. The BlockFramer (40_block_framer rules R90 to R102): what `PREP` answers, case by case, and the padded message
its blocks spell. -/

namespace Sys2Proof

/-! ### Numbers of the padding -/

/-- The two sizes a block and its length field have (R92, R105). -/
theorem blockBytes_lengthRoom (a : Alg) :
    a.blockBytes = 64 ∧ a.lengthRoom = 8 ∨ a.blockBytes = 128 ∧ a.lengthRoom = 16 := by cases a <;> decide

theorem le_blockBytes (a : Alg) : 64 ≤ a.blockBytes := by cases a <;> decide

theorem le_lengthRoom (a : Alg) : 8 ≤ a.lengthRoom := by cases a <;> decide

end Sys2Proof

namespace Sys2Proof.Machine

theorem blockCount_add_block (a : Alg) (n : Nat) : blockCount a (a.blockBytes + n) = blockCount a n + 1 := by
  unfold blockCount
  obtain ⟨hB, hLF⟩ | ⟨hB, hLF⟩ := blockBytes_lengthRoom a <;> rw [hB, hLF] <;> omega

/-- A message with room for marker and length field behind it is one block (R93). -/
theorem blockCount_of_room {a : Alg} {r : Nat} (h : r < a.blockBytes) (hroom : a.lengthRoom ≤ a.blockBytes - r - 1) :
    blockCount a r = 1 := by
  unfold blockCount
  obtain ⟨hB, hLF⟩ | ⟨hB, hLF⟩ := blockBytes_lengthRoom a <;> simp only [hB, hLF] at h hroom ⊢ <;> omega

theorem blockCount_of_no_room {a : Alg} {r : Nat} (h : r < a.blockBytes) (hroom : ¬ a.lengthRoom ≤ a.blockBytes - r - 1) :
    blockCount a r = 2 := by
  unfold blockCount
  obtain ⟨hB, hLF⟩ | ⟨hB, hLF⟩ := blockBytes_lengthRoom a <;> simp only [hB, hLF] at h hroom ⊢ <;> omega

theorem paddingZeros_add_block (a : Alg) (n : Nat) : paddingZeros a (a.blockBytes + n) = paddingZeros a n := by
  unfold paddingZeros
  obtain ⟨hB, hLF⟩ | ⟨hB, hLF⟩ := blockBytes_lengthRoom a <;> rw [hB, hLF] <;> omega

theorem paddingZeros_of_room {a : Alg} {r : Nat} (h : r < a.blockBytes) (hroom : a.lengthRoom ≤ a.blockBytes - r - 1) :
    paddingZeros a r = a.blockBytes - 8 - (r + 1) := by
  unfold paddingZeros
  obtain ⟨hB, hLF⟩ | ⟨hB, hLF⟩ := blockBytes_lengthRoom a <;> simp only [hB, hLF] at h hroom ⊢ <;> omega

/-- Without that room the zeros fill this block and the next up to its length field (R93, R95). -/
theorem paddingZeros_of_no_room {a : Alg} {r : Nat} (h : r < a.blockBytes)
    (hroom : ¬ a.lengthRoom ≤ a.blockBytes - r - 1) :
    paddingZeros a r = (a.blockBytes - r - 1) + (a.blockBytes - 8) := by
  unfold paddingZeros
  obtain ⟨hB, hLF⟩ | ⟨hB, hLF⟩ := blockBytes_lengthRoom a <;> simp only [hB, hLF] at h hroom ⊢ <;> omega

/-- The zeros are the least number from `LF - 8` on that makes the total a multiple of `B` (R100). -/
theorem paddingZeros_isLeast (a : Alg) (n : Nat) :
    IsLeast {z | a.lengthRoom - 8 ≤ z ∧ (n + 1 + z + 8) % a.blockBytes = 0} (paddingZeros a n) := by
  simp only [IsLeast, lowerBounds, Set.mem_ofPred_eq, and_imp, paddingZeros]
  obtain ⟨hB, hLF⟩ | ⟨hB, hLF⟩ := blockBytes_lengthRoom a <;> rw [hB, hLF] <;>
    exact ⟨⟨by omega, by omega⟩, fun z _ _ => by omega⟩

/-! ### A block that ends in the length field -/

/-- The length field in the spelling of the statements (R94). -/
theorem lengthField_eq (a : Alg) (c : StreamContext) :
    lengthField a c = (List.range 8).map (lengthByte a c.bitLen) := by
  have hbyte (p : Nat) : byteOfWord c.bitLen p = (c.bitLen >>> (8 * p)).setWidth 8 := by
    apply BitVec.eq_of_toNat_eq
    simp [toNat_byteOfWord, Nat.shiftRight_eq_div_pow]
  cases a <;> simp [lengthField, bytesOfWord, lengthByte, Alg.order, hbyte]

@[simp] theorem lengthField_length (a : Alg) (c : StreamContext) : (lengthField a c).length = 8 := by
  simp [lengthField]

/-- The block that starts with `xs`, is zero after it and ends in the length field (R93 to R95). -/
def paddedBlock (a : Alg) (c : StreamContext) (xs : List Byte) : List Byte :=
  xs ++ List.replicate (a.blockBytes - 8 - xs.length) 0x00 ++ lengthField a c

section PaddedBlock

variable {a : Alg} {c : StreamContext} {xs : List Byte}

theorem paddedBlock_length (h : xs.length ≤ a.blockBytes - 8) : (paddedBlock a c xs).length = a.blockBytes := by
  simp only [paddedBlock, List.length_append, List.length_replicate, lengthField_length]
  have := le_blockBytes a
  omega

/-- The length field is written over a block's zeros (R94). -/
theorem withLengthField_append_zeros {n : Nat} (h : xs.length ≤ a.blockBytes - 8) (hn : xs.length + n = a.blockBytes) :
    withLengthField a c (xs ++ List.replicate n 0x00) = paddedBlock a c xs := by
  have hmin : min (a.blockBytes - 8 - xs.length) n = a.blockBytes - 8 - xs.length := by omega
  simp only [withLengthField, paddedBlock, List.take_append, List.take_of_length_le h, List.take_replicate, hmin]

/-- A zero in front of the zeros adds nothing. -/
theorem paddedBlock_zero : paddedBlock a c [0x00] = paddedBlock a c [] := by
  have h : a.blockBytes - 8 = a.blockBytes - 8 - 1 + 1 := by have := le_blockBytes a; omega
  simp only [paddedBlock, List.length_nil, List.length_singleton, Nat.sub_zero, List.nil_append]
  rw [h, List.replicate_succ]
  rfl

theorem paddedBlock_getD_of_lt {p : Nat} (h : p < xs.length) : (paddedBlock a c xs).getD p 0 = xs.getD p 0 := by
  rw [paddedBlock, List.append_assoc, List.getD_append _ _ _ _ h]

theorem paddedBlock_getD_zero {p : Nat} (h : xs.length ≤ p) (hp : p < a.blockBytes - 8) :
    (paddedBlock a c xs).getD p 0 = 0x00 := by
  have hlt : p - xs.length < a.blockBytes - 8 - xs.length := by omega
  rw [paddedBlock, List.append_assoc, List.getD_append_right _ _ _ _ h,
    List.getD_append _ _ _ _ (by simpa using hlt), List.getD_replicate _ hlt]

theorem paddedBlock_getD_length {q : Nat} (h : xs.length ≤ a.blockBytes - 8) (hq : q < 8) :
    (paddedBlock a c xs).getD (a.blockBytes - 8 + q) 0 = lengthByte a c.bitLen q := by
  have hfront : (xs ++ List.replicate (a.blockBytes - 8 - xs.length) (0x00 : Byte)).length = a.blockBytes - 8 := by
    simp only [List.length_append, List.length_replicate]
    omega
  rw [paddedBlock, List.getD_append_right _ _ _ _ (by omega), hfront, Nat.add_sub_cancel_left, lengthField_eq]
  simp [List.getD_eq_getElem?_getD, hq]

end PaddedBlock

/-! ### The framer, case by case (R90) -/

section Frame

variable {a : Alg} {i : Lane} {c : StreamContext} (src : Memory)

theorem frameBlock_of_full (hph : c.ph = .active) (hmax : c.len.toNat ≤ maxLen)
    (h : c.cur.toNat + a.blockBytes ≤ c.len.toNat) :
    frameBlock a src i c =
      some (sourceBytes src i c.cur.toNat a.blockBytes, { c with cur := c.cur + BitVec.ofNat 64 a.blockBytes }) := by
  have hrem : a.blockBytes ≤ c.remaining := Nat.le_sub_of_add_le' h
  have hspace : c.cur.toNat + a.blockBytes ≤ sourceSpace := by simp only [maxLen, sourceSpace] at *; omega
  simp [frameBlock, frameFull, hph, hrem, hspace]

theorem remaining_eq {r : Nat} (h : c.cur.toNat + r = c.len.toNat) : c.remaining = r := Nat.sub_eq_of_eq_add' h.symm

theorem cur_add_remaining {r : Nat} (h : c.cur.toNat + r = c.len.toNat) : c.cur + BitVec.ofNat 64 r = c.len := by
  apply BitVec.eq_of_toNat_eq
  have := c.len.isLt
  simp
  omega

/-- The last message bytes, before the marker and what follows it are spelled out (R93). -/
theorem frameBlock_of_last {r : Nat} (hph : c.ph = .active) (hmax : c.len.toNat ≤ maxLen)
    (h : c.cur.toNat + r = c.len.toNat) (h0 : 0 < r) (hr : r < a.blockBytes) :
    frameBlock a src i c = some (frameLast a c r (sourceBytes src i c.cur.toNat r)) := by
  have hspace : c.cur.toNat + r ≤ sourceSpace := by simp only [maxLen, sourceSpace] at *; omega
  simp [frameBlock, hph, remaining_eq h, hspace, hr.le, hr.not_ge, h0]

theorem frameBlock_of_room {r : Nat} (hph : c.ph = .active) (hmax : c.len.toNat ≤ maxLen)
    (h : c.cur.toNat + r = c.len.toNat) (h0 : 0 < r) (hr : r < a.blockBytes)
    (hroom : a.lengthRoom ≤ a.blockBytes - r - 1) :
    frameBlock a src i c =
      some (paddedBlock a c (sourceBytes src i c.cur.toNat r ++ [0x80]), { c with cur := c.len, ph := .done }) := by
  have hLF := le_lengthRoom a
  rw [frameBlock_of_last src hph hmax h h0 hr, frameLast, if_pos hroom, cur_add_remaining h, List.append_cons,
    withLengthField_append_zeros (by simp; omega) (by simp; omega)]

theorem frameBlock_of_no_room {r : Nat} (hph : c.ph = .active) (hmax : c.len.toNat ≤ maxLen)
    (h : c.cur.toNat + r = c.len.toNat) (h0 : 0 < r) (hr : r < a.blockBytes)
    (hroom : ¬ a.lengthRoom ≤ a.blockBytes - r - 1) :
    frameBlock a src i c =
      some (sourceBytes src i c.cur.toNat r ++ 0x80 :: List.replicate (a.blockBytes - r - 1) 0x00,
        { c with cur := c.len, ph := .markerWritten }) := by
  rw [frameBlock_of_last src hph hmax h h0 hr, frameLast, if_neg hroom, cur_add_remaining h]

theorem frameBlock_of_padding (h : c.ph = .active ∧ c.cur = c.len ∨ c.ph = .markerWritten) :
    frameBlock a src i c =
      some (paddedBlock a c [if c.ph = .active then 0x80 else 0x00], { c with ph := .done }) := by
  have hB := le_blockBytes a
  have hpos : a.blockBytes ≠ 0 := by omega
  have hblk (x : Byte) : withLengthField a c (x :: List.replicate (a.blockBytes - 1) 0x00) = paddedBlock a c [x] :=
    withLengthField_append_zeros (xs := [x]) (by simp; omega) (by simp; omega)
  obtain ⟨hph, hcur⟩ | hph := h
  · simp [frameBlock, framePadding, StreamContext.remaining, hph, hcur, hpos]
    exact hblk _
  · simp [frameBlock, framePadding, hph]
    exact hblk _

/-- The cases of the framer: every stream within its bounds that is not `Done` is in one of them (R90 to R95). -/
theorem stream_cases (a : Alg) (hok : c.Ok) (hn : c.ph ≠ .done) :
    (c.ph = .active ∧ c.cur.toNat + a.blockBytes ≤ c.len.toNat) ∨
      (∃ r, c.ph = .active ∧ c.cur.toNat + r = c.len.toNat ∧ 0 < r ∧ r < a.blockBytes) ∨
      (c.ph = .active ∧ c.cur = c.len ∨ c.ph = .markerWritten) := by
  obtain ⟨-, -, hcur, -⟩ := hok
  cases hph : c.ph with
  | done => exact absurd hph hn
  | markerWritten => simp
  | active =>
    by_cases hfull : c.cur.toNat + a.blockBytes ≤ c.len.toNat
    · exact .inl ⟨rfl, hfull⟩
    · obtain heq | hlt := hcur.eq_or_lt
      · exact .inr (.inr (.inl ⟨rfl, BitVec.eq_of_toNat_eq heq⟩))
      · exact .inr (.inl ⟨c.len.toNat - c.cur.toNat, rfl, by omega, by omega, by omega⟩)

/-- Only the bytes below the length enter (R102). -/
theorem frameBlock_congr {src src' : Memory}
    (h : ∀ p < c.len.toNat, readByte src' (sourceAddress i p) = readByte src (sourceAddress i p)) :
    frameBlock a src' i c = frameBlock a src i c := by
  have hbytes : ∀ n, n ≤ c.remaining → sourceBytes src' i c.cur.toNat n = sourceBytes src i c.cur.toNat n := by
    intro n hn
    refine List.map_congr_left fun q hq => h _ ?_
    have hq : q < n := List.mem_range.1 hq
    simp only [StreamContext.remaining] at hn
    omega
  have hasked : (if c.ph = .active then min a.blockBytes c.remaining else 0) ≤ c.remaining := by
    split
    · exact min_le_right ..
    · exact Nat.zero_le _
  simp only [frameBlock, hbytes _ hasked]

end Frame

/-! ### `PREP` -/

section Prep

variable {a : Alg} {k : LaneCount} {i : Lane} {s t : State} {c : StreamContext}

@[simp] theorem afterPrep_src (b : List Byte) : (s.afterPrep i b c).src = s.src := rfl

@[simp] theorem afterPrep_sc_same (b : List Byte) : (s.afterPrep i b c).sc[i] = some c := by
  simp only [State.afterPrep, perLane_getElem_set, if_true]

theorem afterPrep_sc_other {j : Lane} (hj : j ≠ i) (b : List Byte) : (s.afterPrep i b c).sc[j] = s.sc[j] := by
  simp only [State.afterPrep, perLane_getElem_set, if_neg hj]

@[simp] theorem afterPrep_blk_same (b : List Byte) : (s.afterPrep i b c).blk[i] = some b := by
  simp only [State.afterPrep, perLane_getElem_set, if_true]

/-- `PREP` of a stream that is not `Done` answers what the framer does (R90, R101). -/
theorem prep_eq_next_iff (hc : s.sc[i] = some c) (hn : c.ph ≠ .done) :
    exec (.ofFields .prep a k i) s = .next t ↔ formOk .prep a k i = true ∧
      ∃ b c', frameBlock a s.src i c = some (b, c') ∧ t = s.afterPrep i b c' := by
  rw [exec_prep, prepareBlock, microOperation_eq_next, hc, withValue_some, if_neg hn]
  cases frameBlock a s.src i c with
  | none => simp
  | some x =>
    constructor
    · rintro ⟨hform, h⟩
      cases h
      exact ⟨hform, x.1, x.2, rfl, rfl⟩
    · rintro ⟨hform, b, c', h, rfl⟩
      cases h
      exact ⟨hform, rfl⟩

theorem prep_of_frame {b : List Byte} {c' : StreamContext} (hform : formOk .prep a k i = true) (hc : s.sc[i] = some c)
    (hn : c.ph ≠ .done) (hframe : frameBlock a s.src i c = some (b, c')) :
    exec (.ofFields .prep a k i) s = .next (s.afterPrep i b c') :=
  (prep_eq_next_iff hc hn).2 ⟨hform, b, c', hframe, rfl⟩

/-- The source byte in the spelling of the statements (R50). -/
theorem getD_sourceBytes {m : Memory} {p n q : Nat} (hq : q < n) :
    (sourceBytes m i p n).getD q 0 = readByte m (i.val * 2 ^ 61 + (p + q)) := by
  simp only [sourceBytes, List.getD_eq_getElem?_getD, List.getElem?_map, List.getElem?_range hq]
  rfl

end Prep

/-- Settles O23, by case 1 of the framer. -/
theorem prepFullBlock : Obligations.PrepFullBlock := by
  intro a k i s c hform hc hph hmax hlen
  rw [prep_of_frame hform hc (by simp [hph]) (frameBlock_of_full s.src hph hmax hlen)]
  simp only [State.afterPrep, hph]
  rfl

/-- Settles O24, by case 2 of the framer with and without room for the length field. -/
theorem prepLastBytes : Obligations.PrepLastBytes := by
  intro a k i s c r hform hc hph hmax hlen h0 hr
  have hn : c.ph ≠ .done := by simp [hph]
  have hmsg : (sourceBytes s.src i c.cur.toNat r).length = r := sourceBytes_length ..
  by_cases hroom : a.lengthRoom ≤ a.blockBytes - r - 1
  case pos =>
    have hLF := le_lengthRoom a
    have hfront : (sourceBytes s.src i c.cur.toNat r ++ [0x80]).length = r + 1 := by simp
    have hfits : (sourceBytes s.src i c.cur.toNat r ++ [0x80]).length ≤ a.blockBytes - 8 := by omega
    refine ⟨paddedBlock a c (sourceBytes s.src i c.cur.toNat r ++ [0x80]), ?_, paddedBlock_length hfits,
      fun p hp => ?_, ?_, fun p hp hp' => ?_, fun _ q hq => ?_, fun h => ?_⟩
    · rw [prep_of_frame hform hc hn (frameBlock_of_room s.src hph hmax hlen h0 hr hroom)]
      simp [State.afterPrep, hroom]
    · rw [paddedBlock_getD_of_lt (by omega), List.getD_append _ _ _ _ (by omega), getD_sourceBytes hp]
    · rw [paddedBlock_getD_of_lt (by omega), List.getD_append_right _ _ _ _ hmsg.le, hmsg]
      simp
    · exact paddedBlock_getD_zero (by omega) hp'
    · exact paddedBlock_getD_length hfits hq
    · simp [hroom] at h
  case neg =>
    have hzero (p : Nat) (hp : r < p) (hp' : p < a.blockBytes) :
        (sourceBytes s.src i c.cur.toNat r ++ 0x80 :: List.replicate (a.blockBytes - r - 1) (0x00 : Byte)).getD p 0 =
          0x00 := by
      rw [List.append_cons, List.getD_append_right _ _ _ _ (by simp; omega), List.getD_replicate _ (by simp; omega)]
    refine ⟨_, ?_, ?_, fun p hp => ?_, ?_, fun p hp hp' => hzero p hp (by omega), fun h => ?_, fun _ => hzero⟩
    · rw [prep_of_frame hform hc hn (frameBlock_of_no_room s.src hph hmax hlen h0 hr hroom)]
      simp [State.afterPrep, hroom]
      rfl
    · simp; omega
    · rw [List.getD_append _ _ _ _ (by omega), getD_sourceBytes hp]
    · rw [List.getD_append_right _ _ _ _ hmsg.le, hmsg]
      simp
    · simp [hroom] at h

/-- Settles O25, by case 3 of the framer. -/
theorem prepPadding : Obligations.PrepPadding := by
  intro a k i s c hform hc hcase
  have hn : c.ph ≠ .done := by obtain ⟨hph, -⟩ | hph := hcase <;> simp [hph]
  have hfits : 1 ≤ a.blockBytes - 8 := by have := le_blockBytes a; omega
  refine ⟨_, prep_of_frame hform hc hn (frameBlock_of_padding s.src hcase), paddedBlock_length hfits, ?_,
    fun p hp hp' => paddedBlock_getD_zero hp hp', fun q hq => paddedBlock_getD_length hfits hq⟩
  rw [paddedBlock_getD_of_lt (by simp)]
  rfl

/-- Settles O26. -/
theorem prepAfterDone : Obligations.PrepAfterDone := by
  intro a k i s c hform hc hph
  rw [exec_prep, prepareBlock, microOperation_of_ok hform, hc, withValue_some, if_pos hph]
  rfl

theorem afterPrep_comm {i j : Lane} (hji : j ≠ i) (b b' : List Byte) (c c' : StreamContext) (s : State) :
    (s.afterPrep i b c).afterPrep j b' c' = (s.afterPrep j b' c').afterPrep i b c := by
  have hne : i.val ≠ j.val := fun h => hji (Fin.ext h.symm)
  simp only [State.afterPrep, Vector.set_comm _ _ hne]

/-- Settles O27: the framer reads its own stream alone, and writes of different lanes commute. -/
theorem prepIsStreamLocal : Obligations.PrepIsStreamLocal := by
  intro a k i s t c hc hn h
  obtain ⟨hform, b, c', hframe, rfl⟩ := (prep_eq_next_iff hc hn).1 h
  refine ⟨fun j hj => ?frame, rfl, rfl, rfl, rfl, rfl, fun s' hsc hsrc => ?own, fun j u e hj he hen hu => ?commute⟩
  case frame => simp only [State.afterPrep, perLane_getElem_set, if_neg hj, and_self]
  case own =>
    refine ⟨s'.afterPrep i b c', prep_of_frame hform (hsc.trans hc) hn ((frameBlock_congr hsrc).trans hframe), ?_⟩
    simp only [State.afterPrep, perLane_getElem_set, if_true, and_self]
  case commute =>
    have hej : (s.afterPrep i b c').sc[j] = some e := (afterPrep_sc_other hj b).trans he
    obtain ⟨hformj, b', e', hframej, rfl⟩ := (prep_eq_next_iff hej hen).1 hu
    have hci : (s.afterPrep j b' e').sc[i] = some c := (afterPrep_sc_other hj.symm b').trans hc
    exact ⟨_, prep_of_frame hformj he hen hframej, by rw [prep_of_frame hform hci hn hframe, afterPrep_comm hj]⟩

end Sys2Proof.Machine

/-! PROOF. A stream as what is left of its padded message: every `PREP` takes one block off it (40_block_framer rules R99,
R100). -/

namespace Sys2Proof.Machine

/-! ### What is left of a stream -/

/-- The blocks a stream still has to give (R99). -/
def StreamContext.blocksLeft (a : Alg) (c : StreamContext) : Nat :=
  match c.ph with
  | .active => blockCount a c.remaining
  | .markerWritten => 1
  | .done => 0

/-- The bytes of the padded message that stream `i` has not framed yet (R100). -/
def StreamContext.unframed (a : Alg) (src : Memory) (i : Lane) (c : StreamContext) : List Byte :=
  match c.ph with
  | .active =>
    sourceBytes src i c.cur.toNat c.remaining ++ 0x80 :: List.replicate (paddingZeros a c.remaining) 0x00 ++
      lengthField a c
  | .markerWritten => paddedBlock a c []
  | .done => []

/-- A stream has no block left exactly when it is `Done`. -/
theorem blocksLeft_eq_zero_iff {a : Alg} {c : StreamContext} : c.blocksLeft a = 0 ↔ c.ph = .done := by
  unfold StreamContext.blocksLeft
  cases c.ph <;> simp [blockCount]

theorem sourceBytes_append (m : Memory) (i : Lane) (p n n' : Nat) :
    sourceBytes m i p n ++ sourceBytes m i (p + n) n' = sourceBytes m i p (n + n') := by
  simp [sourceBytes, List.range_add, Nat.add_assoc]

section Frame

variable {a : Alg} {i : Lane} {c : StreamContext} (src : Memory)

/-- The next block, and what is left after it, are what was left before (R100). -/
def Spells (a : Alg) (src : Memory) (i : Lane) (c : StreamContext) (b : List Byte) (c' : StreamContext) : Prop :=
  c.unframed a src i = b ++ c'.unframed a src i ∧ c.blocksLeft a = c'.blocksLeft a + 1

theorem spells_full (hph : c.ph = .active) (h : c.cur.toNat + a.blockBytes ≤ c.len.toNat) :
    Spells a src i c (sourceBytes src i c.cur.toNat a.blockBytes)
      { c with cur := c.cur + BitVec.ofNat 64 a.blockBytes } := by
  generalize hc' : { c with cur := c.cur + BitVec.ofNat 64 a.blockBytes } = c'
  have hcur : c'.cur.toNat = c.cur.toNat + a.blockBytes := by
    have := c.len.isLt
    simp only [← hc', BitVec.toNat_add, BitVec.toNat_ofNat]
    omega
  have hlen : c'.len = c.len := by rw [← hc']
  have hph' : c'.ph = .active := by rw [← hc', hph]
  have hfield : lengthField a c' = lengthField a c := by rw [← hc']; rfl
  have hrem : c.remaining = a.blockBytes + c'.remaining := by
    simp only [StreamContext.remaining, hcur, hlen]
    omega
  constructor
  · simp only [StreamContext.unframed, hph, hph', hrem, paddingZeros_add_block, hcur, hfield, ← sourceBytes_append,
      List.append_assoc]
  · simp only [StreamContext.blocksLeft, hph, hph', hrem, blockCount_add_block]

theorem spells_room {r : Nat} (hph : c.ph = .active) (h : c.cur.toNat + r = c.len.toNat) (hr : r < a.blockBytes)
    (hroom : a.lengthRoom ≤ a.blockBytes - r - 1) :
    Spells a src i c (paddedBlock a c (sourceBytes src i c.cur.toNat r ++ [0x80]))
      { c with cur := c.len, ph := .done } := by
  constructor
  · simp only [StreamContext.unframed, hph, remaining_eq h, paddingZeros_of_room hr hroom, paddedBlock, List.length_append,
      sourceBytes_length, List.length_singleton, List.append_nil, List.append_assoc, List.cons_append, List.nil_append]
  · simp only [StreamContext.blocksLeft, hph, remaining_eq h, blockCount_of_room hr hroom]

theorem spells_no_room {r : Nat} (hph : c.ph = .active) (h : c.cur.toNat + r = c.len.toNat) (hr : r < a.blockBytes)
    (hroom : ¬ a.lengthRoom ≤ a.blockBytes - r - 1) :
    Spells a src i c (sourceBytes src i c.cur.toNat r ++ 0x80 :: List.replicate (a.blockBytes - r - 1) 0x00)
      { c with cur := c.len, ph := .markerWritten } := by
  constructor
  · simp only [StreamContext.unframed, hph, remaining_eq h, paddingZeros_of_no_room hr hroom, List.replicate_add, paddedBlock,
      lengthField, List.length_nil, Nat.sub_zero, List.nil_append, List.append_assoc, List.cons_append]
  · simp only [StreamContext.blocksLeft, hph, remaining_eq h, blockCount_of_no_room hr hroom]

theorem spells_padding (h : c.ph = .active ∧ c.cur = c.len ∨ c.ph = .markerWritten) :
    Spells a src i c (paddedBlock a c [if c.ph = .active then 0x80 else 0x00]) { c with ph := .done } := by
  obtain ⟨hph, hcur⟩ | hph := h
  · have hend : c.cur.toNat + 0 = c.len.toNat := congrArg BitVec.toNat hcur
    have hB : 0 < a.blockBytes ∧ a.lengthRoom ≤ a.blockBytes - 0 - 1 := by cases a <;> decide
    obtain ⟨hpos, hroom⟩ := hB
    have hblk : paddedBlock a c (sourceBytes src i c.cur.toNat 0 ++ [0x80]) = paddedBlock a c [0x80] := rfl
    have hspells := spells_room src (i := i) hph hend hpos hroom
    rw [hblk] at hspells
    simpa only [Spells, StreamContext.unframed, StreamContext.blocksLeft, hph, if_true] using hspells
  · simp only [Spells, StreamContext.unframed, StreamContext.blocksLeft, hph, reduceCtorEq, if_false, paddedBlock_zero,
      List.append_nil, and_self]

/-- A stream that is not `Done` has a next block, and framing it takes that block off what is left (R100). -/
theorem frameBlock_spells (hok : c.Ok) (hn : c.ph ≠ .done) :
    ∃ b c', frameBlock a src i c = some (b, c') ∧ Spells a src i c b c' := by
  have ⟨hmax, _, _, _⟩ := hok
  obtain ⟨hph, h⟩ | ⟨r, hph, h, h0, hr⟩ | h := stream_cases a hok hn
  · exact ⟨_, _, frameBlock_of_full src hph hmax h, spells_full src hph h⟩
  · by_cases hroom : a.lengthRoom ≤ a.blockBytes - r - 1
    · exact ⟨_, _, frameBlock_of_room src hph hmax h h0 hr hroom, spells_room src hph h hr hroom⟩
    · exact ⟨_, _, frameBlock_of_no_room src hph hmax h h0 hr hroom, spells_no_room src hph h hr hroom⟩
  · exact ⟨_, _, frameBlock_of_padding src h, spells_padding src h⟩

end Frame

/-! ### A run of `PREP` -/

section Run

variable {a : Alg} {k : LaneCount} {i : Lane} {s t : State} {c : StreamContext}

/-- Up to the number of blocks left, every `PREP` answers: the blocks are whole and spell what was left (R99, R100). -/
theorem prepRun_spells (hform : formOk .prep a k i = true) {n : Nat} (hc : s.sc[i] = some c) (hok : c.Ok)
    (hle : n ≤ c.blocksLeft a) :
    ∃ bs t c', prepRun a k i n s = some (bs, t) ∧ t.sc[i] = some c' ∧ (∀ b ∈ bs, b.length = a.blockBytes) ∧
      c.unframed a s.src i = bs.flatten ++ c'.unframed a s.src i ∧ c.blocksLeft a = c'.blocksLeft a + n := by
  induction n generalizing s c with
  | zero => exact ⟨[], s, c, rfl, hc, by simp, rfl, rfl⟩
  | succ n ih =>
    have hn : c.ph ≠ .done := fun h => by
      rw [blocksLeft_eq_zero_iff.2 h] at hle
      exact absurd hle (Nat.not_succ_le_zero n)
    obtain ⟨b, c₁, hframe, hspell, hleft⟩ := frameBlock_spells (a := a) (i := i) s.src hok hn
    obtain ⟨hok₁, hb, -⟩ := frameBlock_ok hok hframe
    obtain ⟨bs, t, c', hrun, hc', hbs, hspells, hlefts⟩ := ih (s := s.afterPrep i b c₁) (afterPrep_sc_same b) hok₁ (by omega)
    refine ⟨b :: bs, t, c', ?_, hc', by simpa [hb] using hbs, ?_, by omega⟩
    · simp only [prepRun, prep_of_frame hform hc hn hframe, afterPrep_blk_same, hrun]
    · rw [afterPrep_src] at hspells
      rw [hspell, hspells, List.flatten_cons, List.append_assoc]

/-- All the blocks a stream has left (R99). -/
theorem prepRun_blocksLeft (hform : formOk .prep a k i = true) (hc : s.sc[i] = some c) (hok : c.Ok) :
    ∃ bs t, prepRun a k i (c.blocksLeft a) s = some (bs, t) ∧ t.streamDone i ∧ (∀ b ∈ bs, b.length = a.blockBytes) ∧
      c.unframed a s.src i = bs.flatten := by
  obtain ⟨bs, t, c', hrun, hc', hbs, hspells, hleft⟩ := prepRun_spells hform hc hok le_rfl
  have hdone : c'.ph = .done := blocksLeft_eq_zero_iff.1 (Nat.right_eq_add.1 hleft)
  refine ⟨bs, t, hrun, by rw [State.streamDone, hc', Option.map_some, hdone], hbs, ?_⟩
  simpa only [StreamContext.unframed, hdone, List.append_nil] using hspells

/-- Fewer leave it short of `Done` (R99). -/
theorem not_streamDone_of_prepRun {n : Nat} {bs : List (List Byte)} (hform : formOk .prep a k i = true)
    (hc : s.sc[i] = some c) (hok : c.Ok) (hlt : n < c.blocksLeft a) (hrun : prepRun a k i n s = some (bs, t)) :
    ¬ t.streamDone i := by
  obtain ⟨bs', t', c', hrun', hc', -, -, hleft⟩ := prepRun_spells hform hc hok hlt.le
  obtain ⟨rfl, rfl⟩ : bs' = bs ∧ t' = t := by simpa [hrun'] using hrun
  intro hdone
  have hph : c'.ph = .done := by simpa [State.streamDone, hc'] using hdone
  rw [blocksLeft_eq_zero_iff.2 hph] at hleft
  omega

end Run

/-! ### A stream at its start -/

section Start

variable {a : Alg} {c : StreamContext}

theorem blocksLeft_at_start (hph : c.ph = .active) (hcur : c.cur = 0) : c.blocksLeft a = blockCount a c.len.toNat := by
  simp [StreamContext.blocksLeft, StreamContext.remaining, hph, hcur]

/-- A stream that has framed nothing has its padded message left (R100). -/
theorem unframed_at_start (src : Memory) (i : Lane) (hok : c.Ok) (hph : c.ph = .active) (hcur : c.cur = 0) :
    c.unframed a src i = padded a (sourceBytes src i 0 c.len.toNat) := by
  obtain ⟨-, hbits, -, -⟩ := hok
  have hfield : lengthField a c = bytesOfWord a.order 8 (BitVec.ofNat 64 (8 * c.len.toNat)) := by
    rw [lengthField, hbits]
    simp [BitVec.ofNat_mul]
  simp [StreamContext.unframed, StreamContext.remaining, padded, hph, hcur, hfield]

end Start

/-- Settles O28: the number of blocks left falls by one with every `PREP`, and is 0 exactly in `Done`. -/
theorem streamBlockCount : Obligations.BlockCount := by
  intro a k i s c hform hc hok hph hcur
  have hcount : (c.len.toNat + a.lengthRoom) / a.blockBytes + 1 = c.blocksLeft a := (blocksLeft_at_start hph hcur).symm
  rw [hcount]
  obtain ⟨bs, t, hrun, hdone, -⟩ := prepRun_blocksLeft hform hc hok
  exact ⟨⟨bs, t, hrun, hdone⟩, fun n bs t hlt hrun => not_streamDone_of_prepRun hform hc hok hlt hrun⟩

/-- Settles O29: the blocks spell what was left at the start, with the least padding. -/
theorem blocksSpellPaddedMessage : Obligations.BlocksSpellPaddedMessage := by
  intro a k i s c hform hc hok hph hcur
  obtain ⟨bs, t, hrun, -, hbs, hspells⟩ := prepRun_blocksLeft hform hc hok
  obtain ⟨⟨hroom, hmod⟩, hleast⟩ := paddingZeros_isLeast a c.len.toNat
  rw [blocksLeft_at_start hph hcur] at hrun
  refine ⟨bs, t, paddingZeros a c.len.toNat, hrun, hbs, ?_, hroom, hmod, fun z h h' => hleast ⟨h, h'⟩⟩
  have hmsg : sourceBytes s.src i 0 c.len.toNat = (List.range c.len.toNat).map fun p => readByte s.src (i.val * 2 ^ 61 + p) :=
    List.map_congr_left fun p _ => by rw [Nat.zero_add]; rfl
  rw [← hspells, ← lengthField_eq, ← hmsg]
  simp [StreamContext.unframed, StreamContext.remaining, hph, hcur]

end Sys2Proof.Machine

/-! PROOF. The scalar path computes the digest (44_orchestrator rules R173, R183): one turn of its loop absorbs one block
into `DIG[0]`. -/

namespace Sys2Proof.Machine

/-! ### The scalar micro-operations on known words -/

section Words

variable {a : Alg} {k : LaneCount} {i : Lane} {s : State} {h : List (Word a.width)}

theorem withDigest_of_words (hd : s.dig[i] = some (WordArray.ofWords a.width h)) (hl : h.length = a.stateWords)
    (f : List (Word a.width) → Result) : withDigest a i s f = f h := by
  simp only [withDigest, hd, Option.bind_some, wordsOf_ofWords_of_length hl, withValue_some]

@[simp] theorem scheduleOf_length (a : Alg) (b : List Byte) : (scheduleOf a b).length = a.steps :=
  expand_length _ _ (by simp)

/-- `COMP` on known words: its whole next state (R136). -/
theorem comp_of_words {ws : List (Word a.width)} (hform : formOk .comp a k i = true)
    (hd : s.dig[i] = some (WordArray.ofWords a.width h)) (hl : h.length = a.stateWords)
    (hw : s.w = some (WordArray.ofWords a.width ws)) (hlw : ws.length = a.steps) :
    exec (.ofFields .comp a k i) s = .next (s.setDigest i
      (WordArray.ofWords a.width (compress a.family (scalarUnit a.width.bits) h ws))) := by
  rw [exec_comp, compressScalar, microOperation_of_ok hform, withDigest_of_words hd hl, hw, withValue_some,
    wordsOf_ofWords_of_length hlw]

/-- `FINAL` on known words: its whole next state (R195). -/
theorem final_of_words (hform : formOk .final a k i = true) (hd : s.dig[i] = some (WordArray.ofWords a.width h))
    (hl : h.length = a.stateWords) :
    exec (.ofFields .final a k i) s = .next { s with out := s.out.set i (some (digestOfState a h)) } := by
  rw [exec_final, finalizeDigest, microOperation_of_ok hform, withDigest_of_words hd hl]

end Words

/-- `W <- x` (R131). -/
def State.setSchedule (x : WordArray) (s : State) : State := { s with w := some x }

theorem runCore_step {s t : State} (h : coreStep s = .next t) (n : Nat) : runCore (n + 1) s = runCore n t := by
  rw [runCore, h, andThen_of_next]

/-! ### The rows of R183, with their whole next states -/

section Rows

variable {a : Alg} {s : State}

theorem coreStep_sInit (hrun : s.Running a .k1) (hp : s.seq.phase = .sInit) :
    coreStep s = .next ((s.setSeq ⟨.sTest, 0⟩).setDigest 0 (WordArray.ofWords a.width a.iv)) := by
  have hrow : seqRow .k1 s = .ok (issues .inits 0 ⟨.sTest, 0⟩) := by simp only [seqRow, hp]
  exact coreStep_of_micro hrun hrow rfl rfl rfl (inits_next rfl _)

theorem coreStep_sTest_of_active {c c' : StreamContext} {b : List Byte} (hrun : s.Running a .k1) (hp : s.seq.phase = .sTest)
    (hc : s.sc[(0 : Lane)] = some c) (hn : c.ph ≠ .done) (hframe : frameBlock a s.src 0 c = some (b, c')) :
    coreStep s = .next ((s.setSeq ⟨.sSched, 0⟩).afterPrep 0 b c') := by
  have hrow : seqRow .k1 s = .ok (issues .prep 0 ⟨.sSched, 0⟩) := by
    simp only [seqRow, hp, byPhase_of_not_done hc hn]
  exact coreStep_of_micro hrun hrow rfl rfl rfl (prep_of_frame (s := s.setSeq ⟨.sSched, 0⟩) rfl hc hn hframe)

theorem coreStep_sTest_of_done (hrun : s.Running a .k1) (hp : s.seq.phase = .sTest) (hdone : s.streamDone 0) :
    coreStep s = .next (s.setSeq ⟨.sFinal, 0⟩) := by
  have hrow : seqRow .k1 s = .ok (goto ⟨.sFinal, 0⟩) := by simp only [seqRow, hp, byPhase_of_done hdone]
  rw [coreStep_of_running hrun hrow, takeRow_none rfl]
  rfl

theorem coreStep_sSched {b : List Byte} (hrun : s.Running a .k1) (hp : s.seq.phase = .sSched)
    (hb : s.blk[(0 : Lane)] = some b) (hl : b.length = a.blockBytes) :
    coreStep s = .next ((s.setSeq ⟨.sComp, 0⟩).setSchedule (WordArray.ofWords a.width (scheduleOf a b))) := by
  have hrow : seqRow .k1 s = .ok (issues .sched 0 ⟨.sComp, 0⟩) := by simp only [seqRow, hp]
  exact coreStep_of_micro hrun hrow rfl rfl rfl (sched_of_block (s := s.setSeq ⟨.sComp, 0⟩) rfl hb hl)

theorem coreStep_sComp {h ws : List (Word a.width)} (hrun : s.Running a .k1) (hp : s.seq.phase = .sComp)
    (hd : s.dig[(0 : Lane)] = some (WordArray.ofWords a.width h)) (hl : h.length = a.stateWords)
    (hw : s.w = some (WordArray.ofWords a.width ws)) (hlw : ws.length = a.steps) :
    coreStep s = .next ((s.setSeq ⟨.sTest, 0⟩).setDigest 0
      (WordArray.ofWords a.width (compress a.family (scalarUnit a.width.bits) h ws))) := by
  have hrow : seqRow .k1 s = .ok (issues .comp 0 ⟨.sTest, 0⟩) := by simp only [seqRow, hp]
  exact coreStep_of_micro hrun hrow rfl rfl rfl (comp_of_words (s := s.setSeq ⟨.sTest, 0⟩) rfl hd hl hw hlw)

theorem coreStep_sFinal {h : List (Word a.width)} (hrun : s.Running a .k1) (hp : s.seq.phase = .sFinal)
    (hd : s.dig[(0 : Lane)] = some (WordArray.ofWords a.width h)) (hl : h.length = a.stateWords) :
    coreStep s = .next (State.complete a
      { s.setSeq ⟨.done, 0⟩ with out := s.out.set (0 : Lane) (some (digestOfState a h)) }) := by
  have hrow : seqRow .k1 s = .ok { issues .final 0 ⟨.done, 0⟩ with finish := true } := by simp only [seqRow, hp]
  exact coreStep_of_micro hrun hrow rfl rfl rfl (final_of_words (s := s.setSeq ⟨.done, 0⟩) rfl hd hl)

end Rows

/-! ### The loop -/

section Loop

variable {a : Alg} {s : State} {c : StreamContext} {h : List (Word a.width)}

/-- A serial command at its loop test, with stream 0 in context `c` and the words `h` in `DIG[0]` (R183). -/
def State.AtScalarTest (a : Alg) (c : StreamContext) (h : List (Word a.width)) (s : State) : Prop :=
  s.Running a .k1 ∧ s.seq.phase = .sTest ∧ s.sc[(0 : Lane)] = some c ∧
    s.dig[(0 : Lane)] = some (WordArray.ofWords a.width h) ∧ h.length = a.stateWords

/-- The end of a serial command with the digest bytes `bs` (R185, R196). -/
def State.DoneWith (a : Alg) (bs : List Byte) (s : State) : Prop :=
  s.status = 0x0002 ∧ s.seq = ⟨.done, 0⟩ ∧ s.out[(0 : Lane)] = some bs ∧ s.outLen = some (BitVec.ofNat 8 a.digestBytes)

theorem State.AtScalarTest.ok (hs : s.AtScalarTest a c h) : c.Ok := by
  obtain ⟨⟨-, -, hstreams⟩, -, hc, -, -⟩ := hs
  obtain ⟨c', hc', hok⟩ := hstreams 0 (by decide)
  obtain rfl : c' = c := Option.some.inj (hc'.symm.trans hc)
  exact hok

/-- One turn of the loop, `PREP`, `SCHED`, `COMP`, absorbs the next block (R131, R136). -/
theorem State.AtScalarTest.absorbs {c' : StreamContext} {b : List Byte} (hs : s.AtScalarTest a c h) (hn : c.ph ≠ .done)
    (hframe : frameBlock a s.src 0 c = some (b, c')) :
    ∃ t, (∀ n, runCore (n + 3) s = runCore n t) ∧ t.src = s.src ∧ t.AtScalarTest a c' (absorb a h b) := by
  obtain ⟨hok', hb, -⟩ := frameBlock_ok hs.ok hframe
  obtain ⟨hrun, hp, hc, hd, hl⟩ := hs
  have hrun₁ : ((s.setSeq ⟨.sSched, 0⟩).afterPrep 0 b c').Running a .k1 :=
    State.Running.afterPrep (hrun.congr rfl rfl rfl) b hok'
  have hprep := coreStep_sTest_of_active hrun hp hc hn hframe
  have hsched := coreStep_sSched hrun₁ rfl (afterPrep_blk_same b) hb
  have hcomp := coreStep_sComp (s := (((s.setSeq ⟨.sSched, 0⟩).afterPrep 0 b c').setSeq ⟨.sComp, 0⟩).setSchedule
    (WordArray.ofWords a.width (scheduleOf a b))) (hrun₁.congr rfl rfl rfl) rfl hd hl rfl (scheduleOf_length a b)
  exact ⟨_, fun n => (runCore_step hprep _).trans ((runCore_step hsched _).trans (runCore_step hcomp n)), rfl,
    hrun₁.congr rfl rfl rfl, rfl, afterPrep_sc_same b, by simp [absorb], by rw [absorb, compress_length, hl]⟩

/-- Out of the loop, the digest is serialised (R195). -/
theorem State.AtScalarTest.ends (hs : s.AtScalarTest a c h) (hdone : c.ph = .done) :
    ∃ u, runCore 2 s = .next u ∧ u.DoneWith a (digestOfState a h) := by
  obtain ⟨hrun, hp, hc, hd, hl⟩ := hs
  have htest := coreStep_sTest_of_done hrun hp (by rw [State.streamDone, hc, Option.map_some, hdone])
  have hfinal := coreStep_sFinal (s := s.setSeq ⟨.sFinal, 0⟩) (hrun.congr rfl rfl rfl) rfl hd hl
  refine ⟨_, (runCore_step htest 1).trans (runCore_step hfinal 0), rfl, rfl, ?_, rfl⟩
  simp

theorem chunks_append {B n : Nat} {b : List Byte} (hb : b.length = B) (bs : List Byte) :
    chunks B (n + 1) (b ++ bs) = b :: chunks B n bs := by
  subst hb
  simp [chunks]

/-- From its loop test a serial command absorbs the blocks left of its stream, then ends (R183). -/
theorem State.AtScalarTest.runs {n : Nat} (hs : s.AtScalarTest a c h) (hleft : c.blocksLeft a = n) :
    ∃ u, runCore (3 * n + 2) s = .next u ∧
      u.DoneWith a (digestOfState a ((chunks a.blockBytes n (c.unframed a s.src 0)).foldl (absorb a) h)) := by
  induction n generalizing s c h with
  | zero => exact hs.ends (blocksLeft_eq_zero_iff.1 hleft)
  | succ n ih =>
    have hn : c.ph ≠ .done := fun hph => by simp [blocksLeft_eq_zero_iff.2 hph] at hleft
    obtain ⟨b, c', hframe, hspell, hleft'⟩ := frameBlock_spells (a := a) (i := 0) s.src hs.ok hn
    obtain ⟨-, hb, -⟩ := frameBlock_ok hs.ok hframe
    obtain ⟨t, hturn, hsrc, ht⟩ := hs.absorbs hn hframe
    obtain ⟨u, hu, hdone⟩ := ih ht (by omega)
    rw [hsrc] at hdone
    refine ⟨u, (hturn (3 * n + 2)).trans hu, ?_⟩
    rwa [hspell, chunks_append hb, List.foldl_cons]

end Loop

/-! ### From the accept to the end -/

/-- An accepted `HASH` stands before its first row, with stream 0 made from its descriptor (R171, R172). -/
theorem running_of_acceptHash {a : Alg} {s t : State} {d : BitVec 64} (hd : s.srcDesc[(0 : Lane)] = some d)
    (h : exec (.ofFields .hash a .k1 0) s = .next t) (hbusy : t.busy = true) :
    t.Running a .k1 ∧ t.seq.phase = .sInit ∧ t.sc[(0 : Lane)] = some (newStream d) ∧ t.src = s.src := by
  have hsrc : t.src = s.src := (exec_sameInputs h).2.1
  rw [exec_hash, acceptHash] at h
  obtain ⟨e, u, rfl, -, -⟩ | ⟨-, -, rfl⟩ := acceptCommand_cases h
  · simp [busy_raise] at hbusy
  · have hsc := constructStreams_sc_of_lane (k := .k1) (i := 0)
      (s := State.dropShared { s.beginCommand with ctx := some ⟨a, .k1⟩ }) (by decide) hd
    refine ⟨⟨?_, ?_, fun i hi => ?_⟩, rfl, hsc, hsrc⟩
    · rw [State.setSeq_status, (constructStreams_effect ..).1]; rfl
    · rw [State.setSeq_ctx, (constructStreams_effect ..).1]; rfl
    · obtain rfl : i = 0 := by simpa [LaneCount.laneList] using mem_laneList.2 hi
      exact ⟨newStream d, hsc, newStream_ok d⟩

/-- Settles O56: the accept, `INITS`, the loop from the whole padded message, `FINAL`. -/
theorem hashComputesDigest : Obligations.HashComputesDigest := by
  intro a s t d hd h hbusy
  obtain ⟨hrun, hp, hc, hsrc⟩ := running_of_acceptHash hd h hbusy
  have hstart : (t.setSeq ⟨.sTest, 0⟩).setDigest 0 (WordArray.ofWords a.width a.iv) |>.AtScalarTest a (newStream d) a.iv :=
    ⟨hrun.congr rfl rfl rfl, rfl, hc, by simp, iv_length a⟩
  obtain ⟨u, hu, hstatus, hseq, hout, hlen⟩ := hstart.runs (blocksLeft_at_start rfl rfl)
  refine ⟨u, (runCore_step (coreStep_sInit hrun hp) _).trans hu, hstatus, hseq, ?_, hlen⟩
  rw [hout, State.setDigest_src, State.setSeq_src, hsrc, unframed_at_start s.src 0 (newStream_ok d) rfl rfl]
  simp only [digest, sourceMessage, sourceBytes_length]
  rfl

end Sys2Proof.Machine

/-! PROOF. The constant tables (41_algorithm_specs rules R108 to R121): the 64-bit tables of SHA-2 meet the inequalities of
R123 entry by entry, and the 32-bit ones hold the upper halves of their words, the first 32 bits of the same fractions. -/

namespace Sys2Proof.Machine

/-! ### The first bits of a fraction -/

theorem isRootFraction_iff {e N p x : Nat} : isRootFraction e N p x = true ↔
    (rootWhole e p * 2 ^ N + x) ^ e ≤ p * 2 ^ (N * e) ∧ p * 2 ^ (N * e) < (rootWhole e p * 2 ^ N + x + 1) ^ e ∧
      x < 2 ^ N ∧ p < 9 ^ e := by
  simp [isRootFraction, and_assoc]

/-- The first `N` of the first `N + M` bits of a root's fraction are the first `N` bits of it (R123). -/
theorem isRootFraction_div_two_pow {e N M p x : Nat} (h : isRootFraction e (N + M) p x = true) :
    isRootFraction e N p (x / 2 ^ M) = true := by
  obtain ⟨hle, hlt, hx, hp⟩ := isRootFraction_iff.1 h
  have hM : 0 < 2 ^ M := Nat.two_pow_pos M
  have hroot : (rootWhole e p * 2 ^ (N + M) + x) / 2 ^ M = rootWhole e p * 2 ^ N + x / 2 ^ M := by
    rw [pow_add, ← mul_assoc, add_comm, Nat.add_mul_div_right _ _ hM, add_comm]
  have hscale : p * 2 ^ ((N + M) * e) = p * 2 ^ (N * e) * (2 ^ M) ^ e := by
    rw [Nat.add_mul, pow_add, pow_mul 2 M, mul_assoc]
  rw [isRootFraction_iff, ← hroot]
  generalize rootWhole e p * 2 ^ (N + M) + x = r at hle hlt
  rw [hscale] at hle hlt
  refine ⟨?_, ?_, Nat.div_lt_of_lt_mul (by rwa [← pow_add, Nat.add_comm]), hp⟩
  · refine Nat.le_of_mul_le_mul_right ?_ (pow_pos hM e)
    rw [← mul_pow]
    exact (Nat.pow_le_pow_left (Nat.div_mul_le_self r _) e).trans hle
  · refine Nat.lt_of_mul_lt_mul_right (a := (2 ^ M) ^ e) (hlt.trans_le ?_)
    rw [← mul_pow, Nat.add_one_mul]
    exact Nat.pow_le_pow_left (Nat.lt_div_mul_add hM) e

/-! ### SHA-2 -/

theorem kSha2x64_isRootFraction :
    ∀ t < 80, isRootFraction 3 64 (primes80.getD t 0) (kSha2x64.getD t 0).toNat = true := by decide

theorem kSha2x32_eq_upperHalf : ∀ t < 64, (kSha2x32.getD t 0).toNat = (kSha2x64.getD t 0).toNat / 2 ^ 32 := by decide

theorem kSha2x32_isRootFraction {t : Nat} (ht : t < 64) :
    isRootFraction 3 32 (primes80.getD t 0) (kSha2x32.getD t 0).toNat = true := by
  rw [kSha2x32_eq_upperHalf t ht]
  exact isRootFraction_div_two_pow (kSha2x64_isRootFraction t (by omega))

theorem ivSha512_isRootFraction :
    ∀ k < 8, isRootFraction 2 64 (primes80.getD k 0) (ivSha512.getD k 0).toNat = true := by decide

theorem ivSha256_eq_upperHalf : ∀ k < 8, (ivSha256.getD k 0).toNat = (ivSha512.getD k 0).toNat / 2 ^ 32 := by decide

theorem ivSha256_isRootFraction {k : Nat} (hk : k < 8) :
    isRootFraction 2 32 (primes80.getD k 0) (ivSha256.getD k 0).toNat = true := by
  rw [ivSha256_eq_upperHalf k hk]
  exact isRootFraction_div_two_pow (ivSha512_isRootFraction k hk)

theorem ivSha384_isRootFraction :
    ∀ k < 8, isRootFraction 2 64 (primes80.getD (k + 8) 0) (ivSha384.getD k 0).toNat = true := by decide

theorem ivSha224_eq_lowerHalf : ∀ k < 8, (ivSha224.getD k 0).toNat = (ivSha384.getD k 0).toNat % 2 ^ 32 := by decide

/-! ### MD5 -/

theorem sMd5_val : ∀ t < 64, (sMd5 t).val =
    ([[7, 12, 17, 22], [5, 9, 14, 20], [4, 11, 16, 23], [6, 10, 15, 21]].getD (t / 16) []).getD (t % 4) 0 := by decide

/-- Settles O16: the 32-bit fractions by `isRootFraction_div_two_pow`, the other entries by evaluation; `g_MD5` and `K_MD5`
are defined as R110 and R108 give them. -/
theorem tablesMatchClosedForms : Obligations.TablesMatchClosedForms :=
  ⟨rfl, rfl, fun _ => kSha2x32_isRootFraction, kSha2x64_isRootFraction, kSha2x32_eq_upperHalf,
    fun k hk => ⟨ivSha256_isRootFraction hk, ivSha512_isRootFraction k hk, ivSha384_isRootFraction k hk,
      ivSha224_eq_lowerHalf k hk⟩,
    fun t ht => ⟨sMd5_val t ht, rfl⟩, rfl⟩

end Sys2Proof.Machine

/-! PROOF. The scalar compressor (42_scalar_compressor rules R130 to R141): a schedule word by word from the bytes of
its block, and a compression as working registers that move step by step. -/

namespace Sys2Proof

/-! ### The scalar unit in the library's words (00_scope rules R8 to R11; 41_algorithm_specs rules R118, R122) -/

section Unit

variable {w : Nat} (x y : BitVec w)

@[simp] theorem scalarUnit_add : (scalarUnit w).add x y = x + y := rfl

@[simp] theorem scalarUnit_xor : (scalarUnit w).xor x y = x ^^^ y := rfl

@[simp] theorem scalarUnit_shr (n : Amount w) : (scalarUnit w).shr n x = x >>> n.val := rfl

@[simp] theorem scalarUnit_broadcast : (scalarUnit w).broadcast x = x := rfl

theorem bigSigma_scalarUnit (n : Amount w × Amount w × Amount w) :
    bigSigma (scalarUnit w) n x = x.rotateRight n.1 ^^^ x.rotateRight n.2.1 ^^^ x.rotateRight n.2.2 := by
  simp only [bigSigma, rotr_scalarUnit, scalarUnit_xor]

theorem smallSigma_scalarUnit (n : Amount w × Amount w × Amount w) :
    smallSigma (scalarUnit w) n x = x.rotateRight n.1 ^^^ x.rotateRight n.2.1 ^^^ (x >>> n.2.2.val) := by
  simp only [smallSigma, rotr_scalarUnit, scalarUnit_xor, scalarUnit_shr]

end Unit

theorem Width.bits_eq (w : Width) : w.bits = 8 * w.bytes := by cases w <;> rfl

/-! ### The schedule, word by word (R131) -/

section Schedule

variable {w : Nat} {ws : List (BitVec w)} {t : Nat}

/-- `W[t - n]`, read off the words before `W[t]`. -/
theorem wordBack_take {n : Nat} (ht : t ≤ ws.length) (hn : 0 < n ∧ n ≤ t) :
    wordBack (scalarUnit w) (ws.take t) n = ws.getD (t - n) 0 := by
  simp only [wordBack, List.length_take_of_le ht, scalarUnit_broadcast, List.getD_eq_getElem?_getD,
    List.getElem?_take_of_lt (show t - n < t by omega)]

theorem nextMd5_take {ws : List (BitVec 32)} (ht : t ≤ ws.length) (h16 : 16 ≤ t) :
    nextMd5 (scalarUnit 32) (ws.take t) = ws.getD (gMd5 t) 0 := by
  have hg : gMd5 t < t := by unfold gMd5; split_ifs <;> omega
  simp only [nextMd5, List.length_take_of_le ht, scalarUnit_broadcast, List.getD_eq_getElem?_getD,
    List.getElem?_take_of_lt hg]

theorem nextSha1_take {ws : List (BitVec 32)} (ht : t ≤ ws.length) (h16 : 16 ≤ t) :
    nextSha1 (scalarUnit 32) (ws.take t) = (ws.getD (t - 3) 0 ^^^ ws.getD (t - 8) 0 ^^^ ws.getD (t - 14) 0 ^^^
      ws.getD (t - 16) 0).rotateLeft 1 := by
  have hback (n : Nat) (hn : 0 < n ∧ n ≤ 16) := wordBack_take ht ⟨hn.1, hn.2.trans h16⟩
  rw [nextSha1, hback 3 (by decide), hback 8 (by decide), hback 14 (by decide), hback 16 (by decide), rotl_scalarUnit]
  simp only [scalarUnit_xor, BitVec.xor_assoc]
  rfl

theorem nextSha2_take (p : Sha2 w) (ht : t ≤ ws.length) (h16 : 16 ≤ t) :
    nextSha2 p (scalarUnit w) (ws.take t) =
      smallSigma (scalarUnit w) p.smallSigma1 (ws.getD (t - 2) 0) + ws.getD (t - 7) 0 +
      smallSigma (scalarUnit w) p.smallSigma0 (ws.getD (t - 15) 0) + ws.getD (t - 16) 0 := by
  have hback (n : Nat) (hn : 0 < n ∧ n ≤ 16) := wordBack_take ht ⟨hn.1, hn.2.trans h16⟩
  rw [nextSha2, hback 2 (by decide), hback 7 (by decide), hback 15 (by decide), hback 16 (by decide)]
  simp only [scalarUnit_add, BitVec.add_assoc]

end Schedule

/-! ### What a step writes, with the library's rotates (R137 to R140) -/

theorem eq_stepMd5_iff {r : Nat} (hr : r < 64) {a b c d a' b' c' d' x : BitVec 32} :
    [a', b', c', d'] = stepMd5 (scalarUnit 32) r [a, b, c, d] x ↔
      a' = d ∧ b' = b + (a + fMd5 (scalarUnit 32) r b c d + kMd5.getD r 0 + x).rotateLeft
        (([[7, 12, 17, 22], [5, 9, 14, 20], [4, 11, 16, 23], [6, 10, 15, 21]].getD (r / 16) []).getD (r % 4) 0) ∧
      c' = b ∧ d' = c := by
  simp only [stepMd5, rotl_scalarUnit, Machine.sMd5_val r hr, scalarUnit_add, scalarUnit_broadcast, List.cons.injEq,
    and_true]

theorem eq_stepSha1_iff {t : Nat} {a b c d e a' b' c' d' e' x : BitVec 32} :
    [a', b', c', d', e'] = stepSha1 (scalarUnit 32) t [a, b, c, d, e] x ↔
      a' = a.rotateLeft 5 + fSha1 (scalarUnit 32) t b c d + e + kSha1.getD (t / 20) 0 + x ∧
      b' = a ∧ c' = b.rotateLeft 30 ∧ d' = c ∧ e' = d := by
  simp only [stepSha1, rotl_scalarUnit, scalarUnit_add, scalarUnit_broadcast, amount, List.cons.injEq, and_true]

theorem eq_stepSha2_iff {w : Nat} (p : Sha2 w) {t : Nat} {a b c d e f g h a' b' c' d' e' f' g' h' x : BitVec w} :
    [a', b', c', d', e', f', g', h'] = stepSha2 p (scalarUnit w) t [a, b, c, d, e, f, g, h] x ↔
      let t1 := h + (e.rotateRight p.bigSigma1.1 ^^^ e.rotateRight p.bigSigma1.2.1 ^^^ e.rotateRight p.bigSigma1.2.2) +
        ch (scalarUnit w) e f g + p.k.getD t 0 + x
      let t2 := (a.rotateRight p.bigSigma0.1 ^^^ a.rotateRight p.bigSigma0.2.1 ^^^ a.rotateRight p.bigSigma0.2.2) +
        maj (scalarUnit w) a b c
      a' = t1 + t2 ∧ b' = a ∧ c' = b ∧ d' = c ∧ e' = d + t1 ∧ f' = e ∧ g' = f ∧ h' = g := by
  simp only [stepSha2, bigSigma_scalarUnit, scalarUnit_add, scalarUnit_broadcast, List.cons.injEq, and_true]

/-! ### The registers of a compression (R136) -/

section Registers

variable {f : Family}

theorem rounds_concat {α : Type} (u : WordUnit f.width.bits α) (t : Nat) (regs xs : List α) (x : α) :
    rounds f u t regs (xs ++ [x]) = stepRegs f u (t + xs.length) (rounds f u t regs xs) x := by
  induction xs generalizing t regs with
  | nil => rfl
  | cons y ys ih => rw [List.cons_append, rounds, ih, List.length_cons, Nat.add_right_comm]; rfl

/-- A list is its elements by number. -/
theorem map_getD_range {α : Type} (l : List α) (d : α) : (List.range l.length).map (l.getD · d) = l := by
  apply List.ext_getElem <;> simp +contextual

variable (f) in
/-- Working register `j` before step `t` of the compression of the words `ws` into the state `h`. -/
def register (h ws : List (Word f.width)) (j t : Nat) : Word f.width :=
  (rounds f (scalarUnit f.width.bits) 0 h (ws.take t)).getD j 0

variable {h ws : List (Word f.width)} {t : Nat}

theorem map_register :
    (List.range h.length).map (register f h ws · t) = rounds f (scalarUnit f.width.bits) 0 h (ws.take t) := by
  have hmap := map_getD_range (rounds f (scalarUnit f.width.bits) 0 h (ws.take t)) 0
  rwa [rounds_length] at hmap

/-- The registers after step `t` (R137 to R140). -/
theorem map_register_succ (ht : t < ws.length) : (List.range h.length).map (register f h ws · (t + 1)) =
    stepRegs f (scalarUnit f.width.bits) t ((List.range h.length).map (register f h ws · t)) (ws.getD t 0) := by
  rw [map_register, map_register, List.take_add_one, List.getElem?_eq_getElem ht, Option.toList_some, rounds_concat,
    List.length_take_of_le ht.le, Nat.zero_add, List.getD_eq_getElem _ _ ht]

/-- The feed-forward (R141). -/
theorem compress_eq_zipWith_register : compress f (scalarUnit f.width.bits) h ws =
    List.zipWith (· + ·) h ((List.range h.length).map (register f h ws · ws.length)) := by
  rw [map_register, List.take_length]
  rfl

end Registers

end Sys2Proof

namespace Sys2Proof.Machine

/-! ### `INITS` -/

/-- Settles O31: `INITS` writes the table of the algorithm, whose words these are. -/
theorem initsSeedsState : Obligations.InitsSeedsState := fun _ _ s =>
  ⟨(inits_next · s), (inits_next · s), (inits_next · s), (inits_next · s), (inits_next · s), (inits_next · s)⟩

/-! ### The words of a block (20_memory rules R52, R55; R131) -/

theorem byteAt_take_drop (b : List Byte) (m : Nat) {n p : Nat} (hp : p < n) :
    byteAt ((b.drop m).take n) p = byteAt b (m + p) := by
  simp only [byteAt, List.getD_eq_getElem?_getD, List.getElem?_take_of_lt hp, List.getElem?_drop]

section Block

variable {w : Width} {b : List Byte} {t : Nat} (h : (t + 1) * w.bytes ≤ b.length)

include h

theorem length_word_of_block : ((b.drop (t * w.bytes)).take w.bytes).length = w.bytes := by
  rw [Nat.add_one_mul] at h
  rw [List.length_take, List.length_drop]
  omega

theorem toNat_blockWord_little : (blockWord .little w b t).toNat =
    ((List.range w.bytes).map fun p => byteAt b (t * w.bytes + p) * 2 ^ (8 * p)).sum := by
  rw [blockWord, w.bits_eq, toNat_wordOfBytes_little (length_word_of_block h), leNat_eq_sum,
    length_word_of_block h]
  exact congrArg List.sum (List.map_congr_left fun p hp => by rw [byteAt_take_drop b _ (List.mem_range.1 hp)])

theorem toNat_blockWord_big : (blockWord .big w b t).toNat =
    ((List.range w.bytes).map fun p => byteAt b (t * w.bytes + p) * 2 ^ (8 * (w.bytes - 1 - p))).sum := by
  rw [blockWord, w.bits_eq, toNat_wordOfBytes_big (length_word_of_block h), beNat_eq_sum,
    length_word_of_block h]
  exact congrArg List.sum (List.map_congr_left fun p hp => by rw [byteAt_take_drop b _ (List.mem_range.1 hp)])

end Block

theorem toNat_blockWord_little32 {b : List Byte} {t : Nat} (hb : b.length = 64) (ht : t < 16) :
    (blockWord .little .w32 b t).toNat = byteAt b (4 * t) + byteAt b (4 * t + 1) * 2 ^ 8 +
      byteAt b (4 * t + 2) * 2 ^ 16 + byteAt b (4 * t + 3) * 2 ^ 24 := by
  rw [toNat_blockWord_little (show (t + 1) * 4 ≤ b.length by omega)]
  simp [List.sum_range_succ, Nat.mul_comm t]

theorem toNat_blockWord_big32 {b : List Byte} {t : Nat} (hb : b.length = 64) (ht : t < 16) :
    (blockWord .big .w32 b t).toNat = byteAt b (4 * t) * 2 ^ 24 + byteAt b (4 * t + 1) * 2 ^ 16 +
      byteAt b (4 * t + 2) * 2 ^ 8 + byteAt b (4 * t + 3) := by
  rw [toNat_blockWord_big (show (t + 1) * 4 ≤ b.length by omega)]
  simp [List.sum_range_succ, Nat.mul_comm t]

theorem toNat_blockWord_big64 {b : List Byte} {t : Nat} (hb : b.length = 128) (ht : t < 16) :
    (blockWord .big .w64 b t).toNat =
      byteAt b (8 * t) * 2 ^ 56 + byteAt b (8 * t + 1) * 2 ^ 48 +
      byteAt b (8 * t + 2) * 2 ^ 40 + byteAt b (8 * t + 3) * 2 ^ 32 +
      byteAt b (8 * t + 4) * 2 ^ 24 + byteAt b (8 * t + 5) * 2 ^ 16 +
      byteAt b (8 * t + 6) * 2 ^ 8 + byteAt b (8 * t + 7) := by
  rw [toNat_blockWord_big (show (t + 1) * 8 ≤ b.length by omega)]
  simp [List.sum_range_succ, Nat.mul_comm t]

/-! ### `SCHED` -/

section Sched

variable {a : Alg} {b : List Byte} {t : Nat}

/-- The first 16 words are those of the block (R131). -/
theorem scheduleOf_getD_of_lt (ht : t < 16) : (scheduleOf a b).getD t 0 = blockWord a.order a.width b t := by
  rw [List.getD_eq_getElem?_getD, scheduleOf, expand, extend_prefix _ _ _ _ (by simpa using ht)]
  simp [blockWords, ht]

/-- The later words are the family's recurrence (R131). -/
theorem scheduleOf_getD_of_ge (h16 : 16 ≤ t) (ht : t < a.steps) : (scheduleOf a b).getD t 0 =
    nextWord a.family (scalarUnit a.width.bits) ((scheduleOf a b).take t) := by
  have hsteps : 16 + (a.family.steps - 16) = a.steps := Nat.add_sub_of_le (h16.trans ht.le)
  rw [List.getD_eq_getElem?_getD, scheduleOf, expand, extend_next _ _ _ _ (by simpa using h16)
    (by rwa [blockWords_length, hsteps])]
  rfl

end Sched

/-- Settles O32: `g_MD5(t)` names one of the first 16 words. -/
theorem scheduleOfMd5 : Obligations.ScheduleOfMd5 := by
  intro k i s b hform hb hl
  have hlen := scheduleOf_length .md5 b
  refine ⟨scheduleOf .md5 b, sched_of_block hform hb hl, hlen, fun t ht => ?_, fun t h16 ht => ?_⟩
  · rw [← toNat_blockWord_little32 hl ht]
    exact congrArg BitVec.toNat (scheduleOf_getD_of_lt (a := .md5) ht)
  · have hg : gMd5 t = if t < 32 then (5 * t + 1) % 16 else if t < 48 then (3 * t + 5) % 16 else 7 * t % 16 :=
      if_neg h16.not_gt
    rw [← hg, ← nextMd5_take (ht.le.trans hlen.ge) h16]
    exact scheduleOf_getD_of_ge (a := .md5) h16 ht

/-- Settles O33: the recurrence reads 3, 8, 14 and 16 words back. -/
theorem scheduleOfSha1 : Obligations.ScheduleOfSha1 := by
  intro k i s b hform hb hl
  have hlen := scheduleOf_length .sha1 b
  refine ⟨scheduleOf .sha1 b, sched_of_block hform hb hl, hlen, fun t ht => ?_, fun t h16 ht => ?_⟩
  · rw [← toNat_blockWord_big32 hl ht]
    exact congrArg BitVec.toNat (scheduleOf_getD_of_lt (a := .sha1) ht)
  · rw [← nextSha1_take (ht.le.trans hlen.ge) h16]
    exact scheduleOf_getD_of_ge (a := .sha1) h16 ht

/-- Settles O34: the two algorithms have one schedule. -/
theorem scheduleOfSha2x32 : Obligations.ScheduleOfSha2x32 := by
  intro a k i s b ha hform hb hl
  have hlen := scheduleOf_length .sha256 b
  refine ⟨scheduleOf .sha256 b, ?_, hlen, fun t ht => ?_, fun t h16 ht => ?_⟩
  · rcases ha with rfl | rfl <;> exact sched_of_block hform hb hl
  · rw [← toNat_blockWord_big32 hl ht]
    exact congrArg BitVec.toNat (scheduleOf_getD_of_lt (a := .sha256) ht)
  · have hnext := nextSha2_take (ws := scheduleOf .sha256 b) sha2x32 (ht.le.trans hlen.ge) h16
    simp only [smallSigma_scalarUnit] at hnext
    exact (scheduleOf_getD_of_ge (a := .sha256) h16 ht).trans hnext

/-- Settles O35: the two algorithms have one schedule. -/
theorem scheduleOfSha2x64 : Obligations.ScheduleOfSha2x64 := by
  intro a k i s b ha hform hb hl
  have hlen := scheduleOf_length .sha512 b
  refine ⟨scheduleOf .sha512 b, ?_, hlen, fun t ht => ?_, fun t h16 ht => ?_⟩
  · rcases ha with rfl | rfl <;> exact sched_of_block hform hb hl
  · rw [← toNat_blockWord_big64 hl ht]
    exact congrArg BitVec.toNat (scheduleOf_getD_of_lt (a := .sha512) ht)
  · have hnext := nextSha2_take (ws := scheduleOf .sha512 b) sha2x64 (ht.le.trans hlen.ge) h16
    simp only [smallSigma_scalarUnit] at hnext
    exact (scheduleOf_getD_of_ge (a := .sha512) h16 ht).trans hnext

/-! ### `COMP` -/

/-- `COMP` on known words: `DIG[i]` is the old words plus the registers after the last step (R136, R141). -/
theorem comp_of_registers {a : Alg} {k : LaneCount} {i : Lane} {s : State} {h ws : List (Word a.width)}
    (hform : formOk .comp a k i = true) (hd : s.dig[i] = some (WordArray.ofWords a.width h))
    (hl : h.length = a.stateWords) (hw : s.w = some (WordArray.ofWords a.width ws)) (hlw : ws.length = a.steps) :
    exec (.ofFields .comp a k i) s = .next { s with dig := s.dig.set i (some (WordArray.ofWords a.width
      (List.zipWith (· + ·) h ((List.range a.stateWords).map (register a.family h ws · a.steps))))) } := by
  rw [comp_of_words hform hd hl hw hlw, compress_eq_zipWith_register, hl, hlw]
  rfl

/-- Settles O36: the witnesses are the four working registers. -/
theorem compressionOfMd5 : Obligations.CompressionOfMd5 := by
  intro k i s h0 h1 h2 h3 ws hform hd hw hlw
  let R := register .md5 [h0, h1, h2, h3] ws
  refine ⟨R 0, R 1, R 2, R 3, rfl, rfl, rfl, rfl, fun t ht => ?_, ?_⟩
  · exact (eq_stepMd5_iff ht).1 (map_register_succ (f := .md5) (h := [h0, h1, h2, h3]) (ht.trans_eq hlw.symm))
  · exact comp_of_registers (a := .md5) hform hd rfl hw hlw

/-- Settles O37: the witnesses are the five working registers. -/
theorem compressionOfSha1 : Obligations.CompressionOfSha1 := by
  intro k i s h0 h1 h2 h3 h4 ws hform hd hw hlw
  let R := register .sha1 [h0, h1, h2, h3, h4] ws
  refine ⟨R 0, R 1, R 2, R 3, R 4, rfl, rfl, rfl, rfl, rfl, fun t ht => ?_, ?_⟩
  · exact eq_stepSha1_iff.1 (map_register_succ (f := .sha1) (h := [h0, h1, h2, h3, h4]) (ht.trans_eq hlw.symm))
  · exact comp_of_registers (a := .sha1) hform hd rfl hw hlw

/-- Settles O38: the two algorithms have one engine. -/
theorem compressionOfSha2x32 : Obligations.CompressionOfSha2x32 := by
  intro a k i s h0 h1 h2 h3 h4 h5 h6 h7 ws ha hform hd hw hlw
  let R := register .sha2x32 [h0, h1, h2, h3, h4, h5, h6, h7] ws
  refine ⟨R 0, R 1, R 2, R 3, R 4, R 5, R 6, R 7, rfl, rfl, rfl, rfl, rfl, rfl, rfl, rfl, fun t ht => ?_, ?_⟩
  · exact (eq_stepSha2_iff sha2x32).1
      (map_register_succ (f := .sha2x32) (h := [h0, h1, h2, h3, h4, h5, h6, h7]) (ht.trans_eq hlw.symm))
  · rcases ha with rfl | rfl <;> exact comp_of_registers hform hd rfl hw hlw

/-- Settles O39: the two algorithms have one engine. -/
theorem compressionOfSha2x64 : Obligations.CompressionOfSha2x64 := by
  intro a k i s h0 h1 h2 h3 h4 h5 h6 h7 ws ha hform hd hw hlw
  let R := register .sha2x64 [h0, h1, h2, h3, h4, h5, h6, h7] ws
  refine ⟨R 0, R 1, R 2, R 3, R 4, R 5, R 6, R 7, rfl, rfl, rfl, rfl, rfl, rfl, rfl, rfl, fun t ht => ?_, ?_⟩
  · exact (eq_stepSha2_iff sha2x64).1
      (map_register_succ (f := .sha2x64) (h := [h0, h1, h2, h3, h4, h5, h6, h7]) (ht.trans_eq hlw.symm))
  · rcases ha with rfl | rfl <;> exact comp_of_registers hform hd rfl hw hlw

end Sys2Proof.Machine

/-! PROOF. The lane compressor against the scalar one (43_lane_compressor rules R150, R154 to R156). -/

namespace Sys2Proof

/-- Vectors of K words hold their column `j` in lane `j`. -/
theorem forall₂_isLane_column {w K j : Nat} {vs : List (List (BitVec w))} (hK : ∀ v ∈ vs, v.length = K) (hj : j < K) :
    List.Forall₂ (IsLane K j) vs (Machine.column 0 vs j) := by
  rw [Machine.column, List.forall₂_map_right_iff, List.forall₂_same]
  exact fun v hv => isLane_getD (hK v hv) hj

/-- Every column of a broadcast vector array is the words broadcast (R12). -/
theorem column_map_broadcast {w K j : Nat} (ws : List (BitVec w)) (hj : j < K) :
    Machine.column 0 (ws.map (vectorUnit w K).broadcast) j = ws := by
  apply column_eq_of_isLane
  rw [List.forall₂_map_left_iff, List.forall₂_same]
  exact fun x _ => (vectorUnit_lane hj).broadcast x

/-- The vector compression does to each column what the scalar one does to its words (R155). -/
theorem column_compress_vectorUnit {f : Family} {K j : Nat} {hs ws : List (List (Word f.width))}
    (hhs : ∀ v ∈ hs, v.length = K) (hws : ∀ v ∈ ws, v.length = K) (hj : j < K) :
    Machine.column 0 (compress f (vectorUnit f.width.bits K) hs ws) j =
      compress f (scalarUnit f.width.bits) (Machine.column 0 hs j) (Machine.column 0 ws j) :=
  column_eq_of_isLane
    (compress_rel (vectorUnit_lane hj) (forall₂_isLane_column hws hj) (forall₂_isLane_column hhs hj))

end Sys2Proof

namespace Sys2Proof.Machine

@[simp] theorem column_length {α : Type} (d : α) (vs : List (List α)) (j : Nat) : (column d vs j).length = vs.length :=
  List.length_map _

section LaneState

variable {a : Alg} {k : LaneCount} {s : State} {hs : List (List (Word a.width))}

theorem withLaneState_of_vectors (hls : s.ls = some (VectorArray.ofVectors a.width hs)) (hl : hs.length = a.stateWords)
    (hK : ∀ v ∈ hs, v.length = k.lanes) (f : List (List (Word a.width)) → Result) : withLaneState a k s f = f hs := by
  simp only [withLaneState, hls, Option.bind_some, vectorsOf_ofVectors hl hK, withValue_some]

/-- `COMPL` on known vectors: its whole next state (R154). -/
theorem compl_of_vectors {ws : List (List (Word a.width))} (hk : laneCountLegal a k = true)
    (hls : s.ls = some (VectorArray.ofVectors a.width hs)) (hl : hs.length = a.stateWords)
    (hK : ∀ v ∈ hs, v.length = k.lanes) (hlw : s.lw = some (VectorArray.ofVectors a.width ws))
    (hlenw : ws.length = a.steps) (hKw : ∀ v ∈ ws, v.length = k.lanes) :
    exec (.ofFields .compl a k 0) s = .next { s with ls := some (VectorArray.ofVectors a.width
      (compress a.family (vectorUnit a.width.bits k.lanes) hs ws)) } := by
  rw [exec_compl, compressLanes, microOperation_of_ok (formOk_lane (by simp) hk), withLaneState_of_vectors hls hl hK, hlw,
    withValue_some, vectorsOf_ofVectors hlenw hKw]

/-- `SNAP` on known vectors: its whole next state (R156). -/
theorem snap_of_vectors {i : Lane} (hform : formOk .snap a k i = true)
    (hls : s.ls = some (VectorArray.ofVectors a.width hs)) (hl : hs.length = a.stateWords)
    (hK : ∀ v ∈ hs, v.length = k.lanes) :
    exec (.ofFields .snap a k i) s = .next (s.setDigest i (WordArray.ofWords a.width (column 0 hs i.val))) := by
  rw [exec_snap, snapshotLane, microOperation_of_ok hform, withLaneState_of_vectors hls hl hK]

end LaneState

/-- The lane operand of a legal `SNAP` is below K (R76). -/
theorem lane_lt_of_formOk_snap {a : Alg} {k : LaneCount} {i : Lane} (h : formOk .snap a k i = true) :
    i.val < k.lanes := by
  simp only [formOk, laneOk, Bool.and_eq_true, decide_eq_true_eq] at h
  exact h.2

/-- Settles O40: every column of the broadcast is the initial vector itself. -/
theorem initlBroadcasts : Obligations.InitlBroadcasts := by
  intro a k s hk
  refine ⟨a.iv.map (vectorUnit a.width.bits k.lanes).broadcast, initl_next hk s, ?_, ?_, fun j hj => ?_⟩
  · rw [List.length_map, iv_length]
  · simp [vectorUnit]
  · rw [column_map_broadcast a.iv hj]
    exact inits_next (formOk_scalar (by simp) (.inr hk) hj) s

/-- Settles O42: a column of the vector compression is the scalar compression of the columns. -/
theorem complLaneIsCompression : Obligations.ComplLaneIsCompression := by
  intro a k s hs ws hk hls hl hK hlw hlenw hKw
  refine ⟨_, compl_of_vectors hk hls hl hK hlw hlenw hKw, (compress_length ..).trans hl,
    compress_vectorUnit_length hKw hK, fun j t hj hdig hw => ?_⟩
  rw [column_compress_vectorUnit hK hKw hj]
  exact comp_of_words (formOk_scalar (by simp) (.inr hk) hj) hdig ((column_length ..).trans hl) hw
    ((column_length ..).trans hlenw)

/-- Settles O43: every vector of `LS` has a lane `i`, so the copy needs no default. -/
theorem snapCopiesSlice : Obligations.SnapCopiesSlice := by
  intro a k i s vs hform hls hl hK
  refine ⟨column 0 vs i.val, snap_of_vectors hform hls hl hK, (column_length ..).trans hl, fun n hn => ?_⟩
  have hn' : n < vs.length := hn.trans_eq hl.symm
  obtain ⟨-, hlane⟩ : IsLane k.lanes i.val vs[n] (vs[n].getD i.val 0) :=
    isLane_getD (hK _ (List.getElem_mem hn')) (lane_lt_of_formOk_snap hform)
  rw [column, List.getElem?_map, List.getElem?_eq_getElem hn']
  exact hlane.symm

end Sys2Proof.Machine

/-! PROOF. The control of a running command does not see its data (44_orchestrator rule R189; 60_exceptions rule R219): the row of the
phase, and what a micro-operation does to the control, read the control alone. -/

namespace Sys2Proof.Machine

theorem SameControl.symm {s t : State} (h : SameControl s t) : SameControl t s := by
  simp_all [SameControl]

theorem SameControl.trans {s t u : State} (h : SameControl s t) (h' : SameControl t u) : SameControl s u := by
  simp_all [SameControl]

/-! ### The row -/

section Row

variable {s t : State} (h : SameControl s t)

include h

theorem SameControl.byPhase_eq (i : Lane) (r r' : SeqRow) : byPhase s i r r' = byPhase t i r r' := by
  obtain ⟨-, -, -, -, hsc, -⟩ := h
  simp only [byPhase, hsc]

theorem SameControl.activeCount_eq (l : List Lane) : activeCount s l = activeCount t l := by
  obtain ⟨-, -, -, -, hsc, -⟩ := h
  induction l with
  | nil => rfl
  | cons i l ih => simp only [activeCount, hsc, ih]

/-- The enabled row is chosen by the control and the parameters alone (R182). -/
theorem SameControl.seqRow_eq (k : LaneCount) : seqRow k s = seqRow k t := by
  have ⟨hparams, _, hseq, _, _, hnew⟩ := h
  simp only [seqRow, hparams, hseq, hnew, h.byPhase_eq, h.activeCount_eq]

theorem SameControl.issuedWord_eq : issuedWord s = issuedWord t := by
  have ⟨_, _, _, hctx, _, _⟩ := h
  simp only [issuedWord, hctx, h.seqRow_eq]

theorem SameControl.enter (r : SeqRow) : SameControl (r.enter s) (r.enter t) := by
  obtain ⟨hparams, hstatus, -, hctx, hsc, hnew⟩ := h
  unfold SeqRow.enter
  split <;> simp only [SameControl, State.setSeq, State.setNewDone, hparams, hstatus, hctx, hsc, hnew, and_self]

theorem SameControl.leave (r : SeqRow) (a : Alg) : SameControl (r.leave a s) (r.leave a t) := by
  obtain ⟨hparams, -, hseq, hctx, hsc, hnew⟩ := id h
  unfold SeqRow.leave
  split
  · exact ⟨hparams, rfl, hseq, hctx, hsc, hnew⟩
  · exact h

theorem SameControl.raiseInternal (e : CoreError) : SameControl (s.raiseInternal e) (t.raiseInternal e) := by
  obtain ⟨hparams, -, -, hctx, hsc, hnew⟩ := h
  exact ⟨hparams, rfl, rfl, hctx, hsc, hnew⟩

theorem SameControl.afterPrep (i : Lane) (b b' : List Byte) (c : StreamContext) :
    SameControl (s.afterPrep i b c) (t.afterPrep i b' c) := by
  obtain ⟨hparams, hstatus, hseq, hctx, hsc, hnew⟩ := h
  simp only [SameControl, State.afterPrep, hparams, hstatus, hseq, hctx, hsc, hnew, and_self]

end Row

/-! ### The micro-operations -/

/-- Only `PREP` writes an element of the control (R51). -/
theorem OwnWrite.sameControl {i : Lane} {op : Op} {s t : State} (h : OwnWrite i s op t) (hop : op ≠ .prep) :
    SameControl s t := by
  cases h
  case prep => exact absurd rfl hop
  all_goals exact ⟨rfl, rfl, rfl, rfl, rfl, rfl⟩

/-- The context a framing leaves depends on the context it finds, not on the bytes it frames (R90 to R95). -/
theorem frameBlock_context_eq {a : Alg} {src src' : Memory} {i : Lane} {c c₁ c₂ : StreamContext} {b₁ b₂ : List Byte}
    (h₁ : frameBlock a src i c = some (b₁, c₁)) (h₂ : frameBlock a src' i c = some (b₂, c₂)) : c₁ = c₂ := by
  have hmap : (frameBlock a src i c).map Prod.snd = (frameBlock a src' i c).map Prod.snd := by
    simp only [frameBlock, frameFull, frameLast, framePadding, apply_ite (Option.map Prod.snd), Option.map_some,
      Option.map_none, apply_ite Prod.snd]
  simpa [h₁, h₂] using hmap

/-- `PREP` leaves the same control, whatever it frames: it takes the same error or writes the same context. -/
theorem SameControl.prep {a : Alg} {k : LaneCount} {i : Lane} {s t s' t' : State} (h : SameControl s t)
    (hs : exec (.ofFields .prep a k i) s = .next s') (ht : exec (.ofFields .prep a k i) t = .next t') :
    SameControl s' t' := by
  have ⟨_, _, _, _, hsc, _⟩ := h
  obtain ⟨c, hc, hs⟩ := prep_cases hs
  obtain ⟨c₂, hc₂, ht⟩ := prep_cases ht
  obtain rfl : c = c₂ := Option.some.inj (hc.symm.trans (hsc ▸ hc₂))
  obtain ⟨hd, rfl⟩ | ⟨hn, b, c', hframe, rfl⟩ := hs
  · obtain ⟨-, rfl⟩ | ⟨hn, -⟩ := ht
    · exact h.raiseInternal .prepAfterDone
    · exact absurd hd hn
  · obtain ⟨hd, -⟩ | ⟨-, b₂, c₂', hframe₂, rfl⟩ := ht
    · exact absurd hd hn
    · obtain rfl := frameBlock_context_eq hframe hframe₂
      exact h.afterPrep i b b₂ c'

/-- A micro-operation that raises no error leaves the same control. -/
theorem SameControl.micro {op : Op} {a : Alg} {k : LaneCount} {i : Lane} {s t s' t' : State} (h : SameControl s t)
    (hop : op.isCommand = false) (hs : exec (.ofFields op a k i) s = .next s')
    (ht : exec (.ofFields op a k i) t = .next t') (hs' : s'.seq.phase ≠ .failed) (ht' : t'.seq.phase ≠ .failed) :
    SameControl s' t' := by
  by_cases hprep : op = .prep
  · subst hprep
    exact h.prep hs ht
  · obtain ⟨e, rfl⟩ | hs := micro_ownWrite hop hs
    · exact absurd rfl hs'
    · obtain ⟨e, rfl⟩ | ht := micro_ownWrite hop ht
      · exact absurd rfl ht'
      · exact (hs.sameControl hprep).symm.trans (h.trans (ht.sameControl hprep))

/-! ### The step -/

@[simp] theorem SeqRow.leave_seq (r : SeqRow) (a : Alg) (s : State) : (r.leave a s).seq = s.seq := by
  unfold SeqRow.leave
  split <;> rfl

theorem SameControl.takeRow {c : CommandContext} {r : SeqRow} {s t s' t' : State} (h : SameControl s t)
    (hs : takeRow c r s = .next s') (ht : takeRow c r t = .next t') (hs' : s'.seq.phase ≠ .failed)
    (ht' : t'.seq.phase ≠ .failed) : SameControl s' t' := by
  obtain ⟨hm, rfl⟩ | ⟨op, i, u, hm, hop, hu, rfl⟩ := takeRow_cases hs
  · obtain ⟨-, rfl⟩ | ⟨op, i, v, hm', -⟩ := takeRow_cases ht
    · exact (h.enter r).leave r c.alg
    · simp [hm] at hm'
  · obtain ⟨hm', -⟩ | ⟨op', i', v, hm', -, hv, rfl⟩ := takeRow_cases ht
    · simp [hm] at hm'
    · obtain ⟨rfl, rfl⟩ : op = op' ∧ i = i' := by simpa [hm] using hm'
      rw [r.leave_seq] at hs' ht'
      exact ((h.enter r).micro hop hu hv hs' ht').leave r c.alg

theorem State.Ready.not_terminal {s : State} (h : s.Ready) : s.seq.phase.terminal = false := by
  obtain ⟨a, k, -, h⟩ := ready_iff.1 h
  unfold State.phaseReady at h
  cases hp : s.seq.phase <;> simp_all [SeqPhase.terminal]

/-- The step of a running command does not fail (R209). -/
theorem State.Ready.step_not_failed {s t : State} (h : s.Ready) (ht : coreStep s = .next t) : t.seq.phase ≠ .failed := by
  obtain ⟨u, hu, hready⟩ := runningCommandNeverStops s h
  obtain rfl : u = t := by simpa [hu] using ht
  intro hf
  obtain hready | ⟨-, hdone⟩ := hready
  · have := hready.not_terminal
    simp [hf, SeqPhase.terminal] at this
  · simp [hdone] at hf

/-- Settles O60: the same row is taken, and neither step fails. -/
theorem controlIgnoresContents : Obligations.ControlIgnoresContents := by
  intro s t h hs ht
  refine ⟨h.issuedWord_eq, fun s' t' hs' ht' => ?_⟩
  have ⟨_, _, _, hctx, _, _⟩ := h
  obtain ⟨hterm, -⟩ | ⟨c, r, -, hc, hrow, hstep⟩ := coreStep_cases hs'
  · simp [hs.not_terminal] at hterm
  obtain ⟨hterm, -⟩ | ⟨c₂, r₂, -, hc₂, hrow₂, hstep₂⟩ := coreStep_cases ht'
  · simp [ht.not_terminal] at hterm
  obtain rfl : c = c₂ := Option.some.inj (hc.symm.trans (hctx.trans hc₂))
  obtain rfl : r = r₂ := Except.ok.inj (hrow.symm.trans ((h.seqRow_eq c.k).trans hrow₂))
  exact h.takeRow hstep hstep₂ (hs.step_not_failed hs') (ht.step_not_failed ht')

end Sys2Proof.Machine

/-! PROOF. The tables of the sequencer (44_orchestrator rules R182 to R184): a step of the core is the move and the
micro-operation of the enabled row, one lemma per row of the lane path. -/

namespace Sys2Proof.Machine

/-! ### A step by its row -/

section Rows

variable {s : State} {a : Alg} {k : LaneCount} {r : SeqRow}

theorem streamDone_of_ph {i : Lane} {c : StreamContext} (hc : s.sc[i] = some c) (hd : c.ph = .done) : s.streamDone i := by
  rw [State.streamDone, hc, Option.map_some, hd]

/-- A row that only moves (R182). -/
theorem coreStep_of_move (hctx : s.ctx = some ⟨a, k⟩) (hrow : seqRow k s = .ok r) (hm : r.micro = none)
    (hf : r.finish = false) : coreStep s = .next (r.enter s) := by
  rw [coreStep_of_row (not_terminal_of_seqRow hrow) hctx hrow, takeRow_none hm]
  simp [SeqRow.leave, hf]

/-- A row that issues a micro-operation answers what the micro-operation answers after the row's move (R81, R182). -/
theorem coreStep_of_issue {op : Op} {i : Lane} (hctx : s.ctx = some ⟨a, k⟩) (hrow : seqRow k s = .ok r)
    (hm : r.micro = some (op, i)) (hop : op.isCommand = false) (hform : formOk op a k i = true) (hf : r.finish = false) :
    coreStep s = exec (.ofFields op a k i) (r.enter s) := by
  rw [coreStep_of_row (not_terminal_of_seqRow hrow) hctx hrow,
    takeRow_some hm (decode_wordOfFields_eq_ok.2 ⟨hform, rfl⟩) hop]
  simp only [SeqRow.leave, hf]
  cases exec (.ofFields op a k i) (r.enter s) <;> rfl

/-- The last row of `HASH`: its `FINAL`, then the completion (R183, R185). -/
theorem coreStep_sFinal_eq {t : State} (hctx : s.ctx = some ⟨a, .k1⟩) (hp : s.seq.phase = .sFinal)
    (ht : exec (.ofFields .final a .k1 0) { s with seq := ⟨.done, 0⟩ } = .next t) :
    coreStep s = .next (t.complete a) := by
  have hrow : seqRow .k1 s = .ok { issues .final 0 ⟨.done, 0⟩ with finish := true } := by simp only [seqRow, hp]
  rw [coreStep_of_row (not_terminal_of_seqRow hrow) hctx hrow,
    takeRow_some rfl (decode_wordOfFields_eq_ok.2 ⟨rfl, rfl⟩) rfl]
  exact congrArg (andThen · fun t => .next (t.complete a)) ht

end Rows

/-- An accept that leaves the core `BUSY` leaves `SEQ` in the first phase of its command (R171). -/
theorem seq_of_acceptCommand {op : Op} {a : Alg} {k : LaneCount} {s t : State} (h : acceptCommand op a k s = .next t)
    (hbusy : t.busy = true) : t.seq = ⟨firstPhase op, 0⟩ := by
  obtain ⟨e, u, rfl, -, -⟩ | ⟨-, -, rfl⟩ := acceptCommand_cases h
  · simp [busy_raise] at hbusy
  · rfl

/-- Settles O48, row by row of R183. -/
theorem sequencerFollowsHashTable : Obligations.SequencerFollowsHashTable := by
  refine ⟨fun a s t h hbusy => ?accept, fun a s hctx => ⟨fun hp => ?init, fun c hp hc hn => ?prep, fun c hp hc hd => ?leave,
    fun hp => ?sched, fun hp => ?comp, fun t hp ht => ?final⟩⟩
  case accept =>
    rw [exec_hash] at h
    exact seq_of_acceptCommand h hbusy
  case init =>
    exact coreStep_of_issue hctx (r := issues .inits 0 ⟨.sTest, 0⟩) (by simp only [seqRow, hp]) rfl rfl rfl rfl
  case prep =>
    exact coreStep_of_issue hctx (r := issues .prep 0 ⟨.sSched, 0⟩) (by simp only [seqRow, hp, byPhase_of_not_done hc hn])
      rfl rfl rfl rfl
  case leave =>
    exact coreStep_of_move hctx (r := goto ⟨.sFinal, 0⟩)
      (by simp only [seqRow, hp, byPhase_of_done (streamDone_of_ph hc hd)]) rfl rfl
  case sched =>
    exact coreStep_of_issue hctx (r := issues .sched 0 ⟨.sComp, 0⟩) (by simp only [seqRow, hp]) rfl rfl rfl rfl
  case comp =>
    exact coreStep_of_issue hctx (r := issues .comp 0 ⟨.sTest, 0⟩) (by simp only [seqRow, hp]) rfl rfl rfl rfl
  case final => exact coreStep_sFinal_eq hctx hp ht

/-! ### The rows of R184 -/

section LaneRows

variable {s : State} {a : Alg} {k : LaneCount} {i : Lane} {c : StreamContext}

theorem threshold_of_legal (hk : laneCountLegal a k = true) (p : Params) :
    threshold p k = if k = .k2 then p.thresh2 else if k = .k4 then p.thresh4 else p.thresh8 := by
  cases k
  case k1 => cases a <;> cases hk
  all_goals rfl

/-- The number of active streams, by their phases (R26). -/
theorem activeCount_eq_filter {ph : Lane → StreamPhase} {l : List Lane}
    (h : ∀ i ∈ l, (s.sc[i]).map StreamContext.ph = some (ph i)) :
    activeCount s l = .ok (l.filter fun i => ph i ≠ .done).length := by
  induction l with
  | nil => rfl
  | cons i l ih =>
    obtain ⟨c, hc, hph⟩ := Option.map_eq_some_iff.1 (h i (by simp))
    simp only [activeCount, hc, hph, ih fun j hj => h j (by simp [hj]), List.filter_cons]
    by_cases hd : ph i = .done <;> simp [hd]

section Shared

variable (hctx : s.ctx = some ⟨a, k⟩) (hk : laneCountLegal a k = true)

include hctx hk

theorem coreStep_pInit (hp : s.seq.phase = .pInit) :
    coreStep s = exec (.ofFields .initl a k 0) { s with seq := ⟨.pPrep, 0⟩ } :=
  coreStep_of_issue hctx (r := issues .initl 0 ⟨.pPrep, 0⟩) (by simp only [seqRow, hp]) rfl rfl (formOk_lane (by simp) hk) rfl

theorem coreStep_pPack (hp : s.seq.phase = .pPack) :
    coreStep s = exec (.ofFields .pack a k 0) { s with seq := ⟨.pCompl, 0⟩ } :=
  coreStep_of_issue hctx (r := issues .pack 0 ⟨.pCompl, 0⟩) (by simp only [seqRow, hp]) rfl rfl (formOk_lane (by simp) hk) rfl

theorem coreStep_pCompl (hp : s.seq.phase = .pCompl) :
    coreStep s = exec (.ofFields .compl a k 0) { s with seq := ⟨.pSnap, 0⟩ } :=
  coreStep_of_issue hctx (r := issues .compl 0 ⟨.pSnap, 0⟩) (by simp only [seqRow, hp]) rfl rfl (formOk_lane (by simp) hk) rfl

omit hk in
/-- The loop test: another round while more streams are active than the threshold (R179, R180). -/
theorem coreStep_pTest {ph : Lane → StreamPhase} (hp : s.seq.phase = .pTest)
    (hph : ∀ i : Lane, i.val < k.lanes → (s.sc[i]).map StreamContext.ph = some (ph i)) :
    coreStep s = .next { s with
      seq := if threshold s.params k < (k.laneList.filter fun i => ph i ≠ .done).length then ⟨.pPrep, 0⟩ else ⟨.dNext, 0⟩ } := by
  have hcount := activeCount_eq_filter (s := s) fun i hi => hph i (mem_laneList.1 hi)
  exact coreStep_of_move hctx (r := goto _) (by simp only [seqRow, hp, hcount]; rfl) rfl rfl

end Shared

/-! The rows of a lane of the call. -/

section OfLane

variable (hctx : s.ctx = some ⟨a, k⟩) (hn : s.seq.lane = i.val) (hi : i.val < k.lanes)

include hctx hn hi

theorem coreStep_pPrep_of_done (hp : s.seq.phase = .pPrep) (hd : s.streamDone i) :
    coreStep s = .next { s with newDone := s.newDone.set i (some false), seq := ⟨.pPrep, i.val + 1⟩ } :=
  coreStep_of_move hctx (r := { goto ⟨.pPrep, i.val + 1⟩ with clear := some i })
    (by simp only [seqRow, hp, hn, byLane, laneAt_of_lane rfl hi, byPhase_of_done hd]) rfl rfl

theorem coreStep_pSnap_of_old (hp : s.seq.phase = .pSnap) (hnew : s.newDone[i] = some false) :
    coreStep s = .next { s with seq := ⟨.pSnap, i.val + 1⟩ } :=
  coreStep_of_move hctx (r := goto ⟨.pSnap, i.val + 1⟩)
    (by simp only [seqRow, hp, hn, byLane, laneAt_of_lane rfl hi, hnew]) rfl rfl

theorem coreStep_dNext_of_done (hp : s.seq.phase = .dNext) (hd : s.streamDone i) :
    coreStep s = .next { s with seq := ⟨.dNext, i.val + 1⟩ } :=
  coreStep_of_move hctx (r := goto ⟨.dNext, i.val + 1⟩)
    (by simp only [seqRow, hp, hn, byLane, laneAt_of_lane rfl hi, byPhase_of_done hd]) rfl rfl

theorem coreStep_dTest_of_done (hp : s.seq.phase = .dTest) (hd : s.streamDone i) :
    coreStep s = .next { s with seq := ⟨.dNext, i.val + 1⟩ } :=
  coreStep_of_move hctx (r := goto ⟨.dNext, i.val + 1⟩)
    (by simp only [seqRow, hp, hn, byLane, laneAt_of_lane rfl hi, byPhase_of_done hd]) rfl rfl

variable (hk : laneCountLegal a k = true)

include hk

theorem coreStep_pPrep_of_active (hp : s.seq.phase = .pPrep) (hc : s.sc[i] = some c) (ha : c.ph ≠ .done) :
    coreStep s = exec (.ofFields .prep a k i)
      { s with newDone := s.newDone.set i (some false), seq := ⟨.pPrep, i.val + 1⟩ } :=
  coreStep_of_issue hctx (r := { issues .prep i ⟨.pPrep, i.val + 1⟩ with clear := some i })
    (by simp only [seqRow, hp, hn, byLane, laneAt_of_lane rfl hi, byPhase_of_not_done hc ha]) rfl rfl
    (formOk_scalar (by simp) (.inr hk) hi) rfl

theorem coreStep_pSnap_of_new (hp : s.seq.phase = .pSnap) (hnew : s.newDone[i] = some true) :
    coreStep s = exec (.ofFields .snap a k i) { s with seq := ⟨.pSnap, i.val + 1⟩ } :=
  coreStep_of_issue hctx (r := issues .snap i ⟨.pSnap, i.val + 1⟩)
    (by simp only [seqRow, hp, hn, byLane, laneAt_of_lane rfl hi, hnew]) rfl rfl (formOk_snap hk hi) rfl

theorem coreStep_dNext_of_active (hp : s.seq.phase = .dNext) (hc : s.sc[i] = some c) (ha : c.ph ≠ .done) :
    coreStep s = exec (.ofFields .snap a k i) { s with seq := ⟨.dTest, i.val⟩ } :=
  coreStep_of_issue hctx (r := issues .snap i ⟨.dTest, i.val⟩)
    (by simp only [seqRow, hp, hn, byLane, laneAt_of_lane rfl hi, byPhase_of_not_done hc ha]) rfl rfl (formOk_snap hk hi) rfl

theorem coreStep_dTest_of_active (hp : s.seq.phase = .dTest) (hc : s.sc[i] = some c) (ha : c.ph ≠ .done) :
    coreStep s = exec (.ofFields .prep a k i) { s with seq := ⟨.dSched, i.val⟩ } :=
  coreStep_of_issue hctx (r := issues .prep i ⟨.dSched, i.val⟩)
    (by simp only [seqRow, hp, hn, byLane, laneAt_of_lane rfl hi, byPhase_of_not_done hc ha]) rfl rfl
    (formOk_scalar (by simp) (.inr hk) hi) rfl

theorem coreStep_dSched (hp : s.seq.phase = .dSched) :
    coreStep s = exec (.ofFields .sched a k i) { s with seq := ⟨.dComp, i.val⟩ } :=
  coreStep_of_issue hctx (r := issues .sched i ⟨.dComp, i.val⟩)
    (by simp only [seqRow, hp, hn, byLane, laneAt_of_lane rfl hi]) rfl rfl (formOk_scalar (by simp) (.inr hk) hi) rfl

theorem coreStep_dComp (hp : s.seq.phase = .dComp) :
    coreStep s = exec (.ofFields .comp a k i) { s with seq := ⟨.dTest, i.val⟩ } :=
  coreStep_of_issue hctx (r := issues .comp i ⟨.dTest, i.val⟩)
    (by simp only [seqRow, hp, hn, byLane, laneAt_of_lane rfl hi]) rfl rfl (formOk_scalar (by simp) (.inr hk) hi) rfl

theorem coreStep_fFinal (hp : s.seq.phase = .fFinal) :
    coreStep s = exec (.ofFields .final a k i) { s with seq := ⟨.fFinal, i.val + 1⟩ } :=
  coreStep_of_issue hctx (r := issues .final i ⟨.fFinal, i.val + 1⟩)
    (by simp only [seqRow, hp, hn, byLane, laneAt_of_lane rfl hi]) rfl rfl (formOk_scalar (by simp) (.inr hk) hi) rfl

end OfLane

/-! The rows at `i = K`. -/

section AtEnd

variable (hctx : s.ctx = some ⟨a, k⟩) (hn : s.seq.lane = k.lanes)

include hctx hn

theorem coreStep_pPrep_at_end (hp : s.seq.phase = .pPrep) : coreStep s = .next { s with seq := ⟨.pPack, 0⟩ } :=
  coreStep_of_move hctx (r := goto ⟨.pPack, 0⟩) (by simp only [seqRow, hp, byLane, laneAt_of_ge hn.ge]) rfl rfl

theorem coreStep_pSnap_at_end (hp : s.seq.phase = .pSnap) : coreStep s = .next { s with seq := ⟨.pTest, 0⟩ } :=
  coreStep_of_move hctx (r := goto ⟨.pTest, 0⟩) (by simp only [seqRow, hp, byLane, laneAt_of_ge hn.ge]) rfl rfl

theorem coreStep_dNext_at_end (hp : s.seq.phase = .dNext) : coreStep s = .next { s with seq := ⟨.fFinal, 0⟩ } :=
  coreStep_of_move hctx (r := goto ⟨.fFinal, 0⟩) (by simp only [seqRow, hp, byLane, laneAt_of_ge hn.ge]) rfl rfl

theorem coreStep_fFinal_at_end (hp : s.seq.phase = .fFinal) :
    coreStep s = .next (State.complete a { s with seq := ⟨.done, 0⟩ }) := by
  have hrow : seqRow k s = .ok { goto ⟨.done, 0⟩ with finish := true } := by
    simp only [seqRow, hp, byLane, laneAt_of_ge hn.ge]
  rw [coreStep_of_row (not_terminal_of_seqRow hrow) hctx hrow, takeRow_none rfl]
  rfl

end AtEnd

end LaneRows

/-- In a terminal phase the core has no step (R182; log entry 7). -/
theorem coreStep_of_terminal {s : State} (h : s.seq.phase.terminal = true) : coreStep s = .next s := by
  simp [coreStep, h]

/-- Settles O49, row by row of R184. -/
theorem sequencerFollowsHashparTable : Obligations.SequencerFollowsHashparTable := by
  refine ⟨fun a k s t h hbusy => ?accept, fun a k s hk hctx => ?rows, fun s hp => ?terminal⟩
  case accept =>
    rw [exec_hashpar] at h
    exact seq_of_acceptCommand h hbusy
  case terminal => exact coreStep_of_terminal (by obtain hp | hp | hp := hp <;> rw [hp] <;> rfl)
  case rows =>
    refine ⟨coreStep_pInit hctx hk, coreStep_pPack hctx hk, coreStep_pCompl hctx hk, fun ph hp hph => ?test,
      fun i c hn hi hc => ?lane, fun hn => ⟨coreStep_pPrep_at_end hctx hn, coreStep_pSnap_at_end hctx hn,
        coreStep_dNext_at_end hctx hn, coreStep_fFinal_at_end hctx hn⟩⟩
    case test => exact threshold_of_legal hk s.params ▸ coreStep_pTest hctx hp hph
    case lane =>
      exact ⟨fun hp ha => coreStep_pPrep_of_active hctx hn hi hk hp hc ha,
        fun hp hd => coreStep_pPrep_of_done hctx hn hi hp (streamDone_of_ph hc hd), coreStep_pSnap_of_new hctx hn hi hk,
        coreStep_pSnap_of_old hctx hn hi, fun hp ha => coreStep_dNext_of_active hctx hn hi hk hp hc ha,
        fun hp hd => coreStep_dNext_of_done hctx hn hi hp (streamDone_of_ph hc hd),
        fun hp ha => coreStep_dTest_of_active hctx hn hi hk hp hc ha,
        fun hp hd => coreStep_dTest_of_done hctx hn hi hp (streamDone_of_ph hc hd), coreStep_dSched hctx hn hi hk,
        coreStep_dComp hctx hn hi hk, coreStep_fFinal hctx hn hi hk⟩

end Sys2Proof.Machine

/-! PROOF. A length too large (44_orchestrator rule R171; 60_exceptions rules R205 to R207). -/

namespace Sys2Proof.Machine

/-- A descriptor that breaks its form gives a length of `2^61` bytes or more (R39, R205). -/
theorem descTooLong_of_not_descriptorOk {d : BitVec 64} (h : ¬ descriptorOk d) : descTooLong d = true := by
  obtain ⟨hp, hbits⟩ : d.getLsbD 63 = true ∧ d.extractLsb' 61 2 ≠ 0 := by simpa [descriptorOk] using h
  simp only [descTooLong, descPresent, hp, bne_iff_ne.2 hbits, Bool.and_self]

/-- Settles O21: the check of the one lane fails. -/
theorem hashLengthTooLarge : Obligations.HashLengthTooLarge := by
  intro a s d hb hd hbad
  have hcheck : checkDescriptors { s.beginCommand with ctx := some ⟨a, .k1⟩ } LaneCount.k1.laneList = .tooLong := by
    simp [LaneCount.laneList, checkDescriptors, hd, descTooLong_of_not_descriptorOk hbad]
  have hform : formOk .hash a .k1 0 = true := rfl
  have hpre : precondition .hash a .k1 s.params = none := rfl
  rw [exec_hash, acceptHash]
  simp only [acceptCommand, hb, hform, hpre, hcheck, Bool.false_eq_true, not_true_eq_false, if_false]
  rfl

end Sys2Proof.Machine

/-! PROOF. The lane path computes the digests (44_orchestrator rules R174 to R181, R184): in a round each stream that is not
`Done` absorbs one block into its column of `LS`, and the downgrade finishes it in `DIG`. -/

namespace Sys2Proof.Machine

/-! ### Runs of the core -/

/-- Some number of steps of the core leads to a state with `P`. -/
def State.Leads (P : State → Prop) (s : State) : Prop := ∃ n t, runCore n s = .next t ∧ P t

section Leads

variable {P Q : State → Prop} {s t : State}

theorem leads_of_holds (h : P s) : s.Leads P := ⟨0, s, rfl, h⟩

theorem leads_of_step (h : coreStep s = .next t) (ht : t.Leads P) : s.Leads P := by
  obtain ⟨n, u, hu, hP⟩ := ht
  exact ⟨n + 1, u, (runCore_step h n).trans hu, hP⟩

theorem State.Leads.bind (h : s.Leads P) (hP : ∀ t, P t → t.Leads Q) : s.Leads Q := by
  obtain ⟨n, u, hu, hPu⟩ := h
  induction n generalizing s with
  | zero => cases hu; exact hP _ hPu
  | succ n ih =>
    rw [runCore, andThen_eq_next] at hu
    obtain ⟨t, ht, hu⟩ := hu
    exact leads_of_step ht (ih hu)

end Leads

/-! ### What a stream comes to -/

/-- The words stream `i` comes to when what is left of it is absorbed into `h` (R100, R136). -/
def StreamContext.rest (a : Alg) (src : Memory) (i : Lane) (c : StreamContext) (h : List (Word a.width)) :
    List (Word a.width) :=
  (chunks a.blockBytes (c.blocksLeft a) (c.unframed a src i)).foldl (absorb a) h

section Rest

variable {a : Alg} {src : Memory} {i : Lane} {c : StreamContext} {h : List (Word a.width)}

@[simp] theorem absorb_length (h : List (Word a.width)) (b : List Byte) : (absorb a h b).length = h.length :=
  compress_length ..

theorem rest_length : (c.rest a src i h).length = h.length := by
  unfold StreamContext.rest
  generalize chunks a.blockBytes (c.blocksLeft a) (c.unframed a src i) = bs
  induction bs generalizing h with
  | nil => rfl
  | cons b bs ih => rw [List.foldl_cons, ih, absorb_length]

theorem rest_of_done (hd : c.ph = .done) : c.rest a src i h = h := by
  simp [StreamContext.rest, blocksLeft_eq_zero_iff.2 hd, chunks]

/-- A stream that is not `Done` comes to what it comes to after its next block is absorbed (R91 to R95). -/
theorem exists_next_block (a : Alg) (src : Memory) (i : Lane) (hok : c.Ok) (hn : c.ph ≠ .done) :
    ∃ b c', frameBlock a src i c = some (b, c') ∧ b.length = a.blockBytes ∧ c'.Ok ∧
      c.blocksLeft a = c'.blocksLeft a + 1 ∧ ∀ h, c.rest a src i h = c'.rest a src i (absorb a h b) := by
  obtain ⟨b, c', hframe, hun, hleft⟩ := frameBlock_spells (a := a) (i := i) src hok hn
  obtain ⟨hok', hb, -⟩ := frameBlock_ok hok hframe
  refine ⟨b, c', hframe, hb, hok', hleft, fun h => ?_⟩
  rw [StreamContext.rest, hleft, hun, chunks_append hb, List.foldl_cons]
  rfl

end Rest

/-! ### A lane of a call -/

/-- The elements of one lane. -/
structure LaneView where
  sc : Option StreamContext
  newDone : Option Bool
  blk : Option (List Byte)
  dig : Option WordArray
  out : Option (List Byte)

def State.view (s : State) (i : Lane) : LaneView := ⟨s.sc[i], s.newDone[i], s.blk[i], s.dig[i], s.out[i]⟩

namespace LaneView

variable (a : Alg) (src : Memory) (i : Lane) (x h : List (Word a.width)) (N : Nat) (v : LaneView)

/-- The stream is `Done` and `DIG` holds the words `x` it has come to (R178). -/
def Captured : Prop := v.sc.map StreamContext.ph = some .done ∧ v.dig = some (WordArray.ofWords a.width x)

/-- Between two rounds, `h` in its column of `LS`: the stream is captured with the words `x`, or comes to them from `h` in
at most `N` blocks. -/
def Settled : Prop :=
  ∃ c, v.sc = some c ∧ c.Ok ∧ c.blocksLeft a ≤ N ∧
    (c.ph = .done → v.dig = some (WordArray.ofWords a.width x) ∧ v.blk.map List.length = some a.blockBytes) ∧
    (c.ph ≠ .done → c.rest a src i h = x)

/-- Inside a round that leaves `h` in its column of `LS`: settled already, or the stream has become `Done` in this round and
`h` is to be captured (R176 to R178). -/
def Framed : Prop :=
  v.blk.map List.length = some a.blockBytes ∧
    (v.newDone = some false ∧ v.Settled a src i x h N ∨
      v.newDone = some true ∧ h = x ∧ ∃ c, v.sc = some c ∧ c.Ok ∧ c.ph = .done)

/-- Framed for the round that absorbs its block into `h`. -/
def Absorbing : Prop := ∃ b, v.blk = some b ∧ v.Framed a src i x (absorb a h b) N

end LaneView

/-- A call of lane count `k` runs on the sources `src` with the vectors `vs` in `LS`. -/
def State.OnLanes (a : Alg) (k : LaneCount) (src : Memory) (vs : List (List (Word a.width))) (s : State) : Prop :=
  s.ctx = some ⟨a, k⟩ ∧ s.src = src ∧ s.ls = some (VectorArray.ofVectors a.width vs) ∧ vs.length = a.stateWords ∧
    ∀ v ∈ vs, v.length = k.lanes

/-! ### Loops over the lanes -/

/-- From `s` to `t` a loop in phase `ph` has moved on from lane `i`, which it leaves with `B`, and touched no other lane. -/
def LaneTurn (ph : SeqPhase) (C : State → Prop) (B : LaneView → Prop) (i : Lane) (s t : State) : Prop :=
  C t ∧ t.seq = ⟨ph, i.val + 1⟩ ∧ B (t.view i) ∧ ∀ j, j ≠ i → t.view j = s.view j

theorem LaneTurn.of_view {ph : SeqPhase} {C : State → Prop} {B : LaneView → Prop} {i : Lane} {s t u : State}
    (h : LaneTurn ph C B i t u) (hview : ∀ j, j ≠ i → t.view j = s.view j) : LaneTurn ph C B i s u := by
  obtain ⟨hC, hseq, hB, hother⟩ := h
  exact ⟨hC, hseq, hB, fun j hj => (hother j hj).trans (hview j hj)⟩

/-- A loop whose turns each take one lane from `A` to `B` takes all lanes of the call from `A` to `B`. -/
theorem leads_of_turns {k : LaneCount} {ph : SeqPhase} {C : State → Prop} {A B : Lane → LaneView → Prop}
    (turn : ∀ (i : Lane) (s : State), i.val < k.lanes → C s → s.seq = ⟨ph, i.val⟩ → A i (s.view i) →
      s.Leads (LaneTurn ph C (B i) i s))
    {s : State} (hC : C s) (hseq : s.seq = ⟨ph, 0⟩) (hA : ∀ i : Lane, i.val < k.lanes → A i (s.view i)) :
    s.Leads fun t => C t ∧ t.seq = ⟨ph, k.lanes⟩ ∧ ∀ i : Lane, i.val < k.lanes → B i (t.view i) := by
  have upto (n : Nat) (hn : n ≤ k.lanes) : s.Leads fun t => C t ∧ t.seq = ⟨ph, n⟩ ∧
      ∀ i : Lane, i.val < k.lanes → (i.val < n → B i (t.view i)) ∧ (n ≤ i.val → A i (t.view i)) := by
    induction n with
    | zero => exact leads_of_holds ⟨hC, hseq, fun i hi => ⟨fun h => absurd h (Nat.not_lt_zero _), fun _ => hA i hi⟩⟩
    | succ n ih =>
      refine (ih (by omega)).bind fun t ⟨hC, hseq, hlanes⟩ => ?_
      obtain ⟨i, -, rfl⟩ := laneAt_of_lt (show n < k.lanes by omega)
      refine (turn i t hn hC hseq ((hlanes i hn).2 le_rfl)).bind fun u ⟨hC, hseq, hB, hother⟩ => ?_
      refine leads_of_holds ⟨hC, hseq, fun j hj => ?_⟩
      by_cases hji : j = i
      · subst hji
        exact ⟨fun _ => hB, fun h => absurd h (by omega)⟩
      · have hne : j.val ≠ i.val := fun e => hji (Fin.ext e)
        rw [hother j hji]
        exact ⟨fun h => (hlanes j hj).1 (by omega), fun h => (hlanes j hj).2 (by omega)⟩
  refine (upto k.lanes le_rfl).bind fun t ⟨hC, hseq, hlanes⟩ => leads_of_holds ⟨hC, hseq, fun i hi => (hlanes i hi).1 hi⟩

/-! ### A round (R176 to R179) -/

section Turns

variable {a : Alg} {k : LaneCount} {src : Memory} {vs : List (List (Word a.width))} {i : Lane} {s : State}
  {x h : List (Word a.width)} {N : Nat}

/-- The loop of `P_PREP` frames a block of each stream that has one left, which then has one fewer (R176). -/
theorem leads_of_pPrep (hk : laneCountLegal a k = true) (hi : i.val < k.lanes) (hC : s.OnLanes a k src vs)
    (hseq : s.seq = ⟨.pPrep, i.val⟩) (hA : (s.view i).Settled a src i x h N) :
    s.Leads (LaneTurn .pPrep (State.OnLanes a k src vs) (LaneView.Absorbing a src i x h (N - 1)) i s) := by
  have ⟨hctx, hsrc, _⟩ := hC
  have hn : s.seq.lane = i.val := by rw [hseq]
  have hp : s.seq.phase = .pPrep := by rw [hseq]
  obtain ⟨c, hc, hok, hle, hdone, hrest⟩ := hA
  by_cases hd : c.ph = .done
  · obtain ⟨hdig, hblk⟩ := hdone hd
    obtain ⟨b, hb, -⟩ := Option.map_eq_some_iff.1 hblk
    refine leads_of_step (coreStep_pPrep_of_done hctx hn hi hp (streamDone_of_ph hc hd)) (leads_of_holds ⟨hC, rfl, ?_, ?_⟩)
    · refine ⟨b, hb, hblk, .inl ⟨?_, c, hc, hok, ?_, fun _ => ⟨hdig, hblk⟩, fun h => absurd hd h⟩⟩
      · simp [State.view]
      · rw [blocksLeft_eq_zero_iff.2 hd]; exact Nat.zero_le _
    · exact fun j hj => by simp only [State.view, perLane_getElem_set, if_neg hj]
  · obtain ⟨b, c', hframe, hb, hok', hleft, hrest'⟩ := exists_next_block a src i hok hd
    have hexec := prep_of_frame (k := k) (s := { s with newDone := s.newDone.set i (some false), seq := ⟨.pPrep, i.val + 1⟩ })
      (formOk_scalar (by simp) (.inr hk) hi) hc hd (hsrc ▸ hframe)
    refine leads_of_step ((coreStep_pPrep_of_active hctx hn hi hk hp hc hd).trans hexec)
      (leads_of_holds ⟨hC, rfl, ⟨b, afterPrep_blk_same b, ?_⟩, ?_⟩)
    · have hx : c'.rest a src i (absorb a h b) = x := (hrest' h).symm.trans (hrest hd)
      simp only [LaneView.Framed, State.view, afterPrep_blk_same, newDone_afterPrep, afterPrep_sc_same, if_true,
        Option.map_some, hb, true_and]
      by_cases hd' : c'.ph = .done
      · rw [rest_of_done hd'] at hx
        exact .inr ⟨by rw [hd']; rfl, hx, c', rfl, hok', hd'⟩
      · refine .inl ⟨?_, c', rfl, hok', by omega, fun h => absurd h hd', fun _ => hx⟩
        simpa using hd'
    · exact fun j hj => by simp only [State.view, State.afterPrep, perLane_getElem_set, if_neg hj]

/-- The loop of `P_SNAP` captures the streams that have become `Done` in this round (R178). -/
theorem leads_of_pSnap (hk : laneCountLegal a k = true) (hi : i.val < k.lanes) (hC : s.OnLanes a k src vs)
    (hseq : s.seq = ⟨.pSnap, i.val⟩) (hA : (s.view i).Framed a src i x (column 0 vs i.val) N) :
    s.Leads (LaneTurn .pSnap (State.OnLanes a k src vs) (LaneView.Settled a src i x (column 0 vs i.val) N) i s) := by
  have ⟨hctx, _, hls, hl, hK⟩ := hC
  have hn : s.seq.lane = i.val := by rw [hseq]
  have hp : s.seq.phase = .pSnap := by rw [hseq]
  obtain ⟨hblk, ⟨hnew, hsettled⟩ | ⟨hnew, hx, c, hc, hok, hd⟩⟩ := hA
  · exact leads_of_step (coreStep_pSnap_of_old hctx hn hi hp hnew) (leads_of_holds ⟨hC, rfl, hsettled, fun _ _ => rfl⟩)
  · subst hx
    have hexec := snap_of_vectors (s := s.setSeq ⟨.pSnap, i.val + 1⟩) (formOk_snap hk hi) hls hl hK
    refine leads_of_step ((coreStep_pSnap_of_new hctx hn hi hk hp hnew).trans hexec)
      (leads_of_holds ⟨hC, rfl, ⟨c, hc, hok, ?_, fun _ => ⟨?_, hblk⟩, fun h => absurd hd h⟩, ?_⟩)
    · rw [blocksLeft_eq_zero_iff.2 hd]; exact Nat.zero_le _
    · simp [State.view]
    · exact fun j hj => by simp only [State.view, State.setDigest, State.setSeq, perLane_getElem_set, if_neg hj]

end Turns

section Rounds

variable {a : Alg} {k : LaneCount} {src : Memory} {vs : List (List (Word a.width))} {s : State}
  {x : Lane → List (Word a.width)} {N : Nat}

/-- Every lane of the call is settled, with its own column of `LS`. -/
def State.AllSettled (a : Alg) (k : LaneCount) (src : Memory) (x : Lane → List (Word a.width)) (N : Nat)
    (vs : List (List (Word a.width))) (s : State) : Prop :=
  ∀ i : Lane, i.val < k.lanes → (s.view i).Settled a src i (x i) (column 0 vs i.val) N

/-- `PACK` and `COMPL` absorb the block of every lane into its column of `LS` (R151 to R155). -/
theorem leads_of_pPack (hk : laneCountLegal a k = true) (hC : s.OnLanes a k src vs) (hseq : s.seq = ⟨.pPack, 0⟩)
    (hlanes : ∀ i : Lane, i.val < k.lanes → (s.view i).Absorbing a src i (x i) (column 0 vs i.val) N) :
    s.Leads fun t => ∃ vs', t.OnLanes a k src vs' ∧ t.seq = ⟨.pSnap, 0⟩ ∧
      ∀ i : Lane, i.val < k.lanes → (t.view i).Framed a src i (x i) (column 0 vs' i.val) N := by
  obtain ⟨hctx, hsrc, hls, hl, hK⟩ := hC
  have hready (i : Lane) (hi : i ∈ k.laneList) : (s.setSeq ⟨.pCompl, 0⟩).blockReady a i :=
    have ⟨_, _, hblk, _⟩ := hlanes i (mem_laneList.1 hi)
    hblk
  obtain ⟨bs, hbs, hlen, hbl⟩ := readBlocks_ok hready
  have hbsK : bs.length = k.lanes := hlen.trans laneList_length
  have hpack := (coreStep_pPack hctx hk (by rw [hseq])).trans (pack_of_blocks (s := s.setSeq ⟨.pCompl, 0⟩) hk hbs hbl)
  generalize hws : expand a.family (vectorUnit a.width.bits k.lanes) (gather a bs) = ws at hpack
  have hlenw : ws.length = a.steps := hws ▸ expand_length _ _ (by simp [gather])
  have hKw : ∀ v ∈ ws, v.length = k.lanes := hws ▸ extend_vectorUnit_length (by simp [gather, hbsK])
  have hcompl (t : State) (hctx' : t.ctx = some ⟨a, k⟩) (hp : t.seq.phase = .pCompl)
      (hls' : t.ls = some (VectorArray.ofVectors a.width vs)) (hlw : t.lw = some (VectorArray.ofVectors a.width ws)) :=
    (coreStep_pCompl hctx' hk hp).trans (compl_of_vectors (s := t.setSeq ⟨.pSnap, 0⟩) hk hls' hl hK hlw hlenw hKw)
  refine leads_of_step hpack (leads_of_step (hcompl _ hctx rfl hls rfl) (leads_of_holds
    ⟨_, ⟨hctx, hsrc, rfl, (compress_length ..).trans hl, compress_vectorUnit_length hKw hK⟩, rfl, fun i hi => ?_⟩))
  obtain ⟨b, hb, hframed⟩ := hlanes i hi
  have hbi : bs[i.val]? = some b := by rw [readBlocks_getElem? hbs, laneList_getElem? hi]; exact hb
  have hsched : column 0 ws i.val = scheduleOf a b := by rw [← hws, ← hbsK, column_expand_gather hbi]
  rw [column_compress_vectorUnit hK hKw hi, hsched]
  exact hframed

/-- A whole round, from its first `P_PREP` to the loop test: every lane is settled with one block fewer at most. -/
theorem leads_of_round (hk : laneCountLegal a k = true) (hC : s.OnLanes a k src vs) (hseq : s.seq = ⟨.pPrep, 0⟩)
    (hlanes : s.AllSettled a k src x N vs) :
    s.Leads fun t => ∃ vs', t.OnLanes a k src vs' ∧ t.seq = ⟨.pTest, 0⟩ ∧ t.AllSettled a k src x (N - 1) vs' := by
  refine (leads_of_turns (fun i s hi => leads_of_pPrep hk hi) hC hseq hlanes).bind fun t ⟨hC, hseq, hlanes⟩ => ?_
  refine leads_of_step (coreStep_pPrep_at_end hC.1 (by rw [hseq]) (by rw [hseq])) ?_
  refine (leads_of_pPack (s := { t with seq := ⟨.pPack, 0⟩ }) hk hC rfl hlanes).bind fun u ⟨vs', hC, hseq, hlanes⟩ => ?_
  refine (leads_of_turns (fun i s hi => leads_of_pSnap hk hi) hC hseq hlanes).bind fun w ⟨hC, hseq, hlanes⟩ => ?_
  exact leads_of_step (coreStep_pSnap_at_end hC.1 (by rw [hseq]) (by rw [hseq])) (leads_of_holds ⟨vs', hC, rfl, hlanes⟩)

end Rounds

/-! ### The downgrade and the end (R180, R181, R185) -/

section Downgrade

variable {a : Alg} {k : LaneCount} {src : Memory} {vs : List (List (Word a.width))} {i : Lane} {s : State}
  {x h : List (Word a.width)} {N : Nat} {c : StreamContext}

/-- One turn of the downgrade's loop, `PREP`, `SCHED`, `COMP`, absorbs the next block of the lane into `DIG` (R180). -/
theorem leads_of_dTest_active (hk : laneCountLegal a k = true) (hi : i.val < k.lanes) (hC : s.OnLanes a k src vs)
    (hseq : s.seq = ⟨.dTest, i.val⟩) (hc : s.sc[i] = some c) (ha : c.ph ≠ .done)
    (hdig : s.dig[i] = some (WordArray.ofWords a.width h)) (hl : h.length = a.stateWords) {b : List Byte}
    {c' : StreamContext} (hframe : frameBlock a src i c = some (b, c')) (hb : b.length = a.blockBytes) :
    s.Leads fun t => t.OnLanes a k src vs ∧ t.seq = ⟨.dTest, i.val⟩ ∧ t.sc[i] = some c' ∧
      t.dig[i] = some (WordArray.ofWords a.width (absorb a h b)) ∧ ∀ j, j ≠ i → t.view j = s.view j := by
  have ⟨hctx, hsrc, _⟩ := hC
  have hform {op : Op} (ho : op = .inits ∨ op = .prep ∨ op = .sched ∨ op = .comp ∨ op = .final) :
      formOk op a k i = true := formOk_scalar ho (.inr hk) hi
  have hprep := (coreStep_dTest_of_active hctx (by rw [hseq]) hi hk (by rw [hseq]) hc ha).trans
    (prep_of_frame (s := s.setSeq ⟨.dSched, i.val⟩) (hform (by simp)) hc ha (hsrc ▸ hframe))
  generalize ht : (s.setSeq ⟨.dSched, i.val⟩).afterPrep i b c' = t at hprep
  have htctx : t.ctx = some ⟨a, k⟩ := ht ▸ hctx
  have htblk : t.blk[i] = some b := ht ▸ afterPrep_blk_same b
  have hsched := (coreStep_dSched htctx (ht ▸ rfl) hi hk (ht ▸ rfl)).trans
    (sched_of_block (s := t.setSeq ⟨.dComp, i.val⟩) (hform (by simp)) htblk hb)
  generalize hu : { t.setSeq ⟨.dComp, i.val⟩ with w := some (WordArray.ofWords a.width (scheduleOf a b)) } = u at hsched
  have huctx : u.ctx = some ⟨a, k⟩ := hu ▸ htctx
  have hudig : u.dig[i] = some (WordArray.ofWords a.width h) := by subst hu ht; exact hdig
  have huw : u.w = some (WordArray.ofWords a.width (scheduleOf a b)) := hu ▸ rfl
  have hcomp := (coreStep_dComp huctx (hu ▸ rfl) hi hk (hu ▸ rfl)).trans
    (comp_of_words (s := u.setSeq ⟨.dTest, i.val⟩) (hform (by simp)) hudig hl huw (scheduleOf_length a b))
  refine leads_of_step hprep (leads_of_step hsched (leads_of_step hcomp (leads_of_holds ?_)))
  subst hu ht
  refine ⟨hC, rfl, afterPrep_sc_same b, by simp [absorb], fun j hj => ?_⟩
  simp only [State.view, State.setDigest, State.setSeq, State.afterPrep, perLane_getElem_set, if_neg hj]

/-- The downgrade's loop finishes its lane (R180). -/
theorem leads_of_dTest (hk : laneCountLegal a k = true) (hi : i.val < k.lanes) {n : Nat} (hleft : c.blocksLeft a = n)
    (hC : s.OnLanes a k src vs) (hseq : s.seq = ⟨.dTest, i.val⟩) (hc : s.sc[i] = some c) (hok : c.Ok)
    (hdig : s.dig[i] = some (WordArray.ofWords a.width h)) (hl : h.length = a.stateWords) (hx : c.rest a src i h = x) :
    s.Leads (LaneTurn .dNext (State.OnLanes a k src vs) (LaneView.Captured a x) i s) := by
  induction n generalizing s c h with
  | zero =>
    have hd : c.ph = .done := blocksLeft_eq_zero_iff.1 hleft
    rw [rest_of_done hd] at hx
    have hdone : s.streamDone i := streamDone_of_ph hc hd
    exact leads_of_step (coreStep_dTest_of_done hC.1 (by rw [hseq]) hi (by rw [hseq]) hdone)
      (leads_of_holds ⟨hC, rfl, ⟨hdone, hx ▸ hdig⟩, fun _ _ => rfl⟩)
  | succ n ih =>
    have ha : c.ph ≠ .done := fun hd => by simp [blocksLeft_eq_zero_iff.2 hd] at hleft
    obtain ⟨b, c', hframe, hb, hok', hleft', hrest⟩ := exists_next_block a src i hok ha
    refine (leads_of_dTest_active hk hi hC hseq hc ha hdig hl hframe hb).bind fun t ⟨hC, hseq, hc', hdig, hview⟩ => ?_
    refine (ih (by omega) hC hseq hc' hok' hdig (by rw [absorb_length, hl]) (hrest h ▸ hx)).bind fun u hu => ?_
    exact leads_of_holds (hu.of_view hview)

/-- The loop of `D_NEXT` captures what every stream comes to, on the scalar path where it is not `Done` (R180). -/
theorem leads_of_dNext (hk : laneCountLegal a k = true) (hi : i.val < k.lanes) (hC : s.OnLanes a k src vs)
    (hseq : s.seq = ⟨.dNext, i.val⟩) (hA : (s.view i).Settled a src i x (column 0 vs i.val) N) :
    s.Leads (LaneTurn .dNext (State.OnLanes a k src vs) (LaneView.Captured a x) i s) := by
  have ⟨hctx, _, hls, hl, hK⟩ := hC
  have hn : s.seq.lane = i.val := by rw [hseq]
  have hp : s.seq.phase = .dNext := by rw [hseq]
  obtain ⟨c, hc, hok, -, hdone, hrest⟩ := hA
  by_cases hd : c.ph = .done
  · have hdone' : s.streamDone i := streamDone_of_ph hc hd
    exact leads_of_step (coreStep_dNext_of_done hctx hn hi hp hdone')
      (leads_of_holds ⟨hC, rfl, ⟨hdone', (hdone hd).1⟩, fun _ _ => rfl⟩)
  · have hexec := snap_of_vectors (s := { s with seq := ⟨.dTest, i.val⟩ }) (formOk_snap hk hi) hls hl hK
    refine leads_of_step ((coreStep_dNext_of_active hctx hn hi hk hp hc hd).trans hexec) ?_
    refine (leads_of_dTest hk hi rfl (s := State.setDigest { s with seq := ⟨.dTest, i.val⟩ } i _) hC rfl hc hok (by simp)
      ((column_length ..).trans hl) (hrest hd)).bind fun u hu => leads_of_holds (hu.of_view fun j hj => ?_)
    simp only [State.view, State.setDigest, perLane_getElem_set, if_neg hj]

/-- The loop of `F_FINAL` serialises what is captured (R195). -/
theorem leads_of_fFinal (hk : laneCountLegal a k = true) (hi : i.val < k.lanes) (hl : x.length = a.stateWords)
    (hC : s.OnLanes a k src vs) (hseq : s.seq = ⟨.fFinal, i.val⟩) (hA : (s.view i).Captured a x) :
    s.Leads (LaneTurn .fFinal (State.OnLanes a k src vs) (fun v => v.out = some (digestOfState a x)) i s) := by
  have hexec := final_of_words (k := k) (s := { s with seq := ⟨.fFinal, i.val + 1⟩ }) (formOk_scalar (by simp) (.inr hk) hi)
    hA.2 hl
  refine leads_of_step ((coreStep_fFinal hC.1 (by rw [hseq]) hi hk (by rw [hseq])).trans hexec)
    (leads_of_holds ⟨hC, rfl, ?_, fun j hj => ?_⟩)
  · simp [State.view]
  · simp only [State.view, perLane_getElem_set, if_neg hj]

end Downgrade

section Run

variable {a : Alg} {k : LaneCount} {src : Memory} {vs : List (List (Word a.width))} {s : State}
  {x : Lane → List (Word a.width)} {N : Nat}

/-- The end of a parallel command with the digest bytes of the words `x` (R185, R196). -/
def State.DoneLanes (a : Alg) (k : LaneCount) (x : Lane → List (Word a.width)) (s : State) : Prop :=
  s.status = 0x0002 ∧ s.seq = ⟨.done, 0⟩ ∧ s.outLen = some (BitVec.ofNat 8 a.digestBytes) ∧
    ∀ i : Lane, i.val < k.lanes → s.out[i] = some (digestOfState a (x i))

/-- The downgrade and the finalization, from settled lanes to the end (R180, R181, R185). -/
theorem leads_of_downgrade (hk : laneCountLegal a k = true) (hx : ∀ i, (x i).length = a.stateWords)
    (hC : s.OnLanes a k src vs) (hseq : s.seq = ⟨.dNext, 0⟩) (hlanes : s.AllSettled a k src x N vs) :
    s.Leads (State.DoneLanes a k x) := by
  refine (leads_of_turns (fun i s hi => leads_of_dNext hk hi) hC hseq hlanes).bind fun t ⟨hC, hseq, hlanes⟩ => ?_
  refine leads_of_step (coreStep_dNext_at_end hC.1 (by rw [hseq]) (by rw [hseq])) ?_
  refine (leads_of_turns (s := { t with seq := ⟨.fFinal, 0⟩ }) (fun i s hi => leads_of_fFinal hk hi (hx i)) hC rfl
    hlanes).bind fun u ⟨hC, hseq, hout⟩ => ?_
  exact leads_of_step (coreStep_fFinal_at_end hC.1 (by rw [hseq]) (by rw [hseq])) (leads_of_holds ⟨rfl, rfl, rfl, hout⟩)

theorem State.AllSettled.exists_phases (h : s.AllSettled a k src x N vs) :
    ∃ ph : Lane → StreamPhase, ∀ i : Lane, i.val < k.lanes → (s.sc[i]).map StreamContext.ph = some (ph i) := by
  refine ⟨fun i => ((s.sc[i]).map StreamContext.ph).getD .done, fun i hi => ?_⟩
  obtain ⟨c, hc, -⟩ := h i hi
  have hc : s.sc[i] = some c := hc
  simp [hc]

/-- With no block left no stream is active, so the loop test leads to the downgrade (R26, R179). -/
theorem filter_active_eq_nil {ph : Lane → StreamPhase} (hlanes : s.AllSettled a k src x 0 vs)
    (hph : ∀ i : Lane, i.val < k.lanes → (s.sc[i]).map StreamContext.ph = some (ph i)) :
    (k.laneList.filter fun i => ph i ≠ .done) = [] := by
  rw [List.filter_eq_nil_iff]
  intro i hi
  have hi := mem_laneList.1 hi
  obtain ⟨c, hc, -, hle, -⟩ := hlanes i hi
  obtain ⟨c₂, hc₂, hph⟩ := Option.map_eq_some_iff.1 (hph i hi)
  obtain rfl : c = c₂ := Option.some.inj (hc.symm.trans hc₂)
  have hd : c.ph = .done := blocksLeft_eq_zero_iff.1 (Nat.le_zero.1 hle)
  simp [← hph, hd]

/-- From its loop test a parallel command comes to its end, whatever the threshold (R179). -/
theorem leads_of_pTest (hk : laneCountLegal a k = true) (hx : ∀ i, (x i).length = a.stateWords)
    (hC : s.OnLanes a k src vs) (hseq : s.seq = ⟨.pTest, 0⟩) (hlanes : s.AllSettled a k src x N vs) :
    s.Leads (State.DoneLanes a k x) := by
  induction N using Nat.strong_induction_on generalizing s vs with
  | _ N ih =>
    obtain ⟨ph, hph⟩ := hlanes.exists_phases
    refine leads_of_step (coreStep_pTest hC.1 (by rw [hseq]) hph) ?_
    by_cases hmore : threshold s.params k < (k.laneList.filter fun i => ph i ≠ .done).length
    · have hN : N ≠ 0 := by
        rintro rfl
        rw [filter_active_eq_nil hlanes hph] at hmore
        exact absurd hmore (Nat.not_lt_zero _)
      rw [if_pos hmore]
      refine (leads_of_round (s := { s with seq := ⟨.pPrep, 0⟩ }) hk hC rfl hlanes).bind fun t ⟨vs', hC, hseq, hlanes⟩ => ?_
      exact ih (N - 1) (by omega) hC hseq hlanes
    · rw [if_neg hmore]
      exact leads_of_downgrade (s := { s with seq := ⟨.dNext, 0⟩ }) hk hx hC rfl hlanes

end Run

end Sys2Proof.Machine

/-! PROOF. What a command computes (44_orchestrator rules R174, R185 to R188): the digests, by either path, and nothing that
an earlier command has left. -/

namespace Sys2Proof.Machine

/-! ### `HASHPAR` -/

/-- An accepted `HASHPAR` stands before its first row, each stream made from its descriptor (R171, R172). -/
theorem start_of_acceptHashpar {a : Alg} {k : LaneCount} {s t : State} (h : exec (.ofFields .hashpar a k 0) s = .next t)
    (hbusy : t.busy = true) :
    laneCountLegal a k = true ∧ t.ctx = some ⟨a, k⟩ ∧ t.seq = ⟨.pInit, 0⟩ ∧ t.src = s.src ∧
      ∀ i : Lane, i.val < k.lanes → ∃ d, s.srcDesc[i] = some d ∧ t.sc[i] = some (newStream d) := by
  have hsrc : t.src = s.src := (exec_sameInputs h).2.1
  rw [exec_hashpar, acceptHashpar] at h
  obtain ⟨e, u, rfl, -, -⟩ | ⟨hform, hdesc, rfl⟩ := acceptCommand_cases h
  · simp [busy_raise] at hbusy
  · refine ⟨by simpa [formOk, laneCountOk, laneOk] using hform, ?_, rfl, hsrc, fun i hi => ?_⟩
    · rw [State.setSeq_ctx, (constructStreams_effect ..).1]; rfl
    · obtain ⟨d, hd, -⟩ := hdesc i hi
      exact ⟨d, hd, constructStreams_sc_of_lane hi hd⟩

/-- From its first row a parallel command comes to what its streams come to from the initial vector (R174). -/
theorem leads_of_pInit {a : Alg} {k : LaneCount} {s : State} (hk : laneCountLegal a k = true) (hctx : s.ctx = some ⟨a, k⟩)
    (hseq : s.seq = ⟨.pInit, 0⟩) {d : Lane → BitVec 64}
    (hsc : ∀ i : Lane, i.val < k.lanes → s.sc[i] = some (newStream (d i))) :
    s.Leads (State.DoneLanes a k fun i => (newStream (d i)).rest a s.src i a.iv) := by
  obtain ⟨N, hN⟩ := Finite.exists_le fun i : Lane => (newStream (d i)).blocksLeft a
  have hx (i : Lane) : ((newStream (d i)).rest a s.src i a.iv).length = a.stateWords := rest_length.trans (iv_length a)
  generalize hvs : a.iv.map (vectorUnit a.width.bits k.lanes).broadcast = vs
  have hl : vs.length = a.stateWords := by rw [← hvs, List.length_map, iv_length]
  have hK : ∀ v ∈ vs, v.length = k.lanes := by simp [← hvs, vectorUnit]
  have hinit := (coreStep_pInit hctx hk (by rw [hseq])).trans (initl_next hk _)
  rw [hvs] at hinit
  refine leads_of_step hinit ((leads_of_round (N := N)
    (s := { s with seq := ⟨.pPrep, 0⟩, ls := some (VectorArray.ofVectors a.width vs) }) hk ⟨hctx, rfl, rfl, hl, hK⟩ rfl
    fun i hi => ?_).bind fun t ⟨vs', hC, hseq, hlanes⟩ => leads_of_pTest hk hx hC hseq hlanes)
  have hcol : column 0 vs i.val = a.iv := hvs ▸ column_map_broadcast a.iv hi
  rw [hcol]
  exact ⟨newStream (d i), hsc i hi, newStream_ok _, hN i, fun h => (by cases h), fun _ => rfl⟩

/-- What a stream comes to from the initial vector is the digest of its message (R100, R195). -/
theorem digestOfState_rest_newStream (a : Alg) (src : Memory) (i : Lane) (d : BitVec 64) :
    digestOfState a ((newStream d).rest a src i a.iv) = digest a (sourceMessage src i d) := by
  rw [StreamContext.rest, blocksLeft_at_start rfl rfl, unframed_at_start src i (newStream_ok d) rfl rfl]
  simp only [digest, sourceMessage, sourceBytes_length]
  rfl

/-- Settles O57: the accept, `INITL`, the rounds, the downgrade and the finalization. -/
theorem hashparComputesDigests : Obligations.HashparComputesDigests := by
  intro a k s t h hbusy
  obtain ⟨hk, hctx, hseq, hsrc, hstreams⟩ := start_of_acceptHashpar h hbusy
  have hd (i : Lane) : ∃ d, i.val < k.lanes → s.srcDesc[i] = some d ∧ t.sc[i] = some (newStream d) := by
    by_cases hi : i.val < k.lanes
    · exact (hstreams i hi).imp fun _ h _ => h
    · exact ⟨0, fun h => absurd h hi⟩
  choose d hd using hd
  obtain ⟨n, u, hu, hstatus, hdone, hlen, hout⟩ := leads_of_pInit hk hctx hseq fun i hi => (hd i hi).2
  refine ⟨n, u, hu, hstatus, hdone, hlen, fun i hi => ⟨d i, (hd i hi).1, ?_⟩⟩
  rw [hout i hi, hsrc, digestOfState_rest_newStream]

/-! ### One message, one digest -/

/-- The message a descriptor presents is made of the source bytes below its length (R39, R50). -/
theorem sourceMessage_congr {src src' : Memory} {i j : Lane} {d : BitVec 64}
    (h : ∀ p < (descLength d).toNat, readByte src' (sourceAddress j p) = readByte src (sourceAddress i p)) :
    sourceMessage src' j d = sourceMessage src i d := by
  refine List.map_congr_left fun p hp => ?_
  rw [Nat.zero_add]
  exact h p (List.mem_range.1 hp)

theorem isDone_of_status {s : State} (h : s.status = 0x0002) : s.isDone = true := by
  rw [State.isDone, h]
  decide

/-- Settles O58: both paths leave the digest of the one message. -/
theorem parallelEqualsScalar : Obligations.ParallelEqualsScalar := by
  intro a k i s s' t t' d hi h hbusy h' hbusy' hd hd' hbytes
  obtain ⟨n, u, hu, hstatus, -, hlen, hout⟩ := hashparComputesDigests a k s t h hbusy
  obtain ⟨u', hu', hstatus', -, hout', hlen'⟩ := hashComputesDigest a s' t' d hd' h' hbusy'
  obtain ⟨d₂, hd₂, hout⟩ := hout i hi
  obtain rfl : d = d₂ := Option.some.inj (hd.symm.trans hd₂)
  refine ⟨n, _, u, u', hu, hu', isDone_of_status hstatus, isDone_of_status hstatus', hlen.trans hlen'.symm, ?_⟩
  rw [hout, hout', sourceMessage_congr hbytes]

/-! ### What an accept leaves of the result -/

theorem checkDescriptors_congr {s t : State} {l : List Lane} (h : ∀ i ∈ l, t.srcDesc[i] = s.srcDesc[i]) :
    checkDescriptors t l = checkDescriptors s l := by
  induction l with
  | nil => rfl
  | cons i l ih => simp only [checkDescriptors, h i (by simp), ih fun j hj => h j (by simp [hj])]

/-- `STATUS` after an accept, from the word, the parameters and what the descriptor check finds (R171, R206). -/
def acceptStatus (op : Op) (a : Alg) (k : LaneCount) (p : Params) (check : DescriptorCheck) : BitVec 16 :=
  let failed (e : CoreError) : BitVec 16 := statusWord .failed e.err e.info
  if formOk op a k 0 then
    (precondition op a k p).elim (if check = .tooLong then failed .lengthTooLarge else statusWord .busy 0 0) failed
  else failed .illegalCommand

/-- Every accept invalidates the last result (R171). -/
theorem acceptCommand_result {op : Op} {a : Alg} {k : LaneCount} {s t : State} (h : acceptCommand op a k s = .next t) :
    t.status = acceptStatus op a k s.params (checkDescriptors s k.laneList) ∧
      t.out = Vector.replicate 8 none ∧ t.outLen = none := by
  have hcheck : checkDescriptors { s.beginCommand with ctx := some ⟨a, k⟩ } k.laneList = checkDescriptors s k.laneList :=
    checkDescriptors_congr fun _ _ => rfl
  unfold acceptCommand at h
  split at h
  · cases h
  · split at h
    · rename_i hform
      cases h
      exact ⟨(if_neg hform).symm, rfl, rfl⟩
    · rename_i hform
      rw [acceptStatus, if_pos (not_not.1 hform)]
      dsimp only at h
      split at h
      · rename_i e hpre
        cases h
        rw [hpre]
        exact ⟨rfl, rfl, rfl⟩
      · rename_i hpre
        rw [hpre, Option.elim_none]
        rw [hcheck] at h
        split at h
        · cases h
        · rename_i hlong
          cases h
          rw [hlong]
          exact ⟨rfl, rfl, rfl⟩
        · rename_i hfine
          cases h
          rw [hfine, (constructStreams_effect ..).1]
          exact ⟨rfl, rfl, rfl⟩

/-! ### The result of a command -/

/-- A host command that is accepted comes to `DONE` with the digests of its lanes' messages (R173, R174). -/
theorem leads_of_acceptCommand {op : Op} {a : Alg} {k : LaneCount} {s t : State} (hop : op.isCommand = true)
    (h : acceptCommand op a k s = .next t) (hbusy : t.busy = true) :
    t.Leads fun u => u.status = 0x0002 ∧ u.seq = ⟨.done, 0⟩ ∧ u.outLen = some (BitVec.ofNat 8 a.digestBytes) ∧
      ∀ i : Lane, i.val < k.lanes →
        ∃ d, s.srcDesc[i] = some d ∧ u.out[i] = some (digest a (sourceMessage s.src i d)) := by
  cases op
  case hash =>
    obtain ⟨e, u, rfl, -, -⟩ | ⟨hform, hdesc, -⟩ := acceptCommand_cases h
    · simp [busy_raise] at hbusy
    · obtain rfl : k = .k1 := by simpa [formOk, laneCountOk, laneOk] using hform
      obtain ⟨d, hd, -⟩ := hdesc 0 (by decide)
      obtain ⟨u, hu, hstatus, hseq, hout, hlen⟩ := hashComputesDigest a s t d hd ((exec_hash ..).trans h) hbusy
      refine ⟨_, u, hu, hstatus, hseq, hlen, fun i hi => ?_⟩
      obtain rfl : i = 0 := by simpa [LaneCount.laneList] using mem_laneList.2 hi
      exact ⟨d, hd, hout⟩
  case hashpar => exact hashparComputesDigests a k s t ((exec_hashpar ..).trans h) hbusy
  all_goals cases hop

/-- A core that has come to a terminal phase stays there (R182). -/
theorem runCore_add_of_terminal {n : Nat} {s u : State} (h : runCore n s = .next u) (hu : u.seq.phase.terminal = true)
    (m : Nat) : runCore (n + m) s = .next u := by
  induction n generalizing s with
  | zero =>
    cases h
    rw [Nat.zero_add]
    induction m with
    | zero => rfl
    | succ m ih => rw [runCore_step (coreStep_of_terminal hu), ih]
  | succ n ih =>
    rw [runCore, andThen_eq_next] at h
    obtain ⟨t, ht, h⟩ := h
    rw [Nat.succ_add, runCore_step ht, ih h]

/-- Settles O59: the accepts answer alike, and the digests are those of the same messages. -/
theorem resultDependsOnInputsOnly : Obligations.ResultDependsOnInputsOnly := by
  intro j s s' t t' hj h h' hparams hagree
  rw [exec_of_isCommand hj] at h h'
  obtain ⟨hstatus, hlen, hout⟩ : t'.status = t.status ∧ t'.outLen = t.outLen ∧ t'.out = t.out := by
    obtain ⟨hst, hout, hlen⟩ := acceptCommand_result h
    obtain ⟨hst', hout', hlen'⟩ := acceptCommand_result h'
    have hcheck := checkDescriptors_congr fun i hi => (hagree i (mem_laneList.1 hi)).1
    exact ⟨by rw [hst, hst', hparams, hcheck], hlen'.trans hlen.symm, hout'.trans hout.symm⟩
  refine ⟨hstatus, fun _ => ⟨hlen, hout⟩, fun hbusy => ?_⟩
  have hbusy' : t'.busy = true := by rw [State.busy, hstatus]; exact hbusy
  obtain ⟨n, u, hu, hst, hseq, hlen, hout⟩ := leads_of_acceptCommand hj h hbusy
  obtain ⟨n', u', hu', hst', hseq', hlen', hout'⟩ := leads_of_acceptCommand hj h' hbusy'
  have hrun := runCore_add_of_terminal hu (by rw [hseq]; rfl) n'
  have hrun' := runCore_add_of_terminal hu' (by rw [hseq']; rfl) n
  refine ⟨n + n', u, u', hrun, Nat.add_comm n' n ▸ hrun', isDone_of_status hst, hst'.trans hst.symm, hlen'.trans hlen.symm,
    fun i hi => ?_⟩
  obtain ⟨d, hd, hout⟩ := hout i hi
  obtain ⟨d', hd', hout'⟩ := hout' i hi
  obtain ⟨hdesc, hbytes⟩ := hagree i hi
  obtain rfl : d = d' := Option.some.inj (hd.symm.trans (hdesc.symm.trans hd'))
  exact ⟨by rw [hout, hout', sourceMessage_congr (hbytes d hd)], by simp [hout]⟩

end Sys2Proof.Machine

/-! PROOF. The digest as bytes and its length (45_digest_finalizer rules R195, R196). -/

namespace Sys2Proof.Machine

/-! ### Words laid end to end -/

/-- In a concatenation of strings of one length, the quotient of an index names the string and the remainder the place in
it. -/
theorem getElem?_flatMap_of_length {α β : Type} {f : α → List β} {m : Nat} (hf : ∀ x, (f x).length = m) {p : Nat}
    (hp : p < m) (l : List α) (n : Nat) : (l.flatMap f)[n * m + p]? = l[n]?.bind fun x => (f x)[p]? := by
  induction l generalizing n with
  | nil => rfl
  | cons x l ih =>
    rw [List.flatMap_cons]
    cases n with
    | zero => rw [Nat.zero_mul, Nat.zero_add, List.getElem?_append_left (by rw [hf]; exact hp)]; rfl
    | succ n =>
      have hindex : (n + 1) * m + p - m = n * m + p := by rw [Nat.succ_mul]; omega
      rw [List.getElem?_append_right (by rw [hf, Nat.succ_mul]; omega), hf, hindex, ih, List.getElem?_cons_succ]

/-- A byte of a word in an algorithm's order (R53). -/
theorem bytesOfWord_order_getD (a : Alg) {w n p : Nat} (x : BitVec w) (hp : p < n) :
    (bytesOfWord a.order n x).getD p 0 = byteOfWord x (if a = .md5 then p else n - 1 - p) := by
  cases a <;> simp [bytesOfWord, Alg.order, hp]

/-! ### The digest of a state -/

/-- No digest has more words than the state it is taken from (R105). -/
theorem digestWords_le_stateWords (a : Alg) : a.digestWords ≤ a.stateWords := by cases a <;> decide

section Digest

variable {a : Alg} {h : List (Word a.width)} (hl : h.length = a.stateWords)

include hl

theorem digestOfState_length : (digestOfState a h).length = a.digestWords * a.width.bytes := by
  have hle : a.digestWords ≤ h.length := hl ▸ digestWords_le_stateWords a
  simp [digestOfState, List.length_flatMap, hle]

/-- Byte `p` of digest word `n` (R195). -/
theorem digestOfState_getD {n p : Nat} (hn : n < a.digestWords) (hp : p < a.width.bytes) :
    (digestOfState a h).getD (n * a.width.bytes + p) 0 =
      byteOfWord (h.getD n 0) (if a = .md5 then p else a.width.bytes - 1 - p) := by
  have hlt : n < h.length := hl ▸ hn.trans_le (digestWords_le_stateWords a)
  rw [← bytesOfWord_order_getD a _ hp, digestOfState, List.getD_eq_getElem?_getD,
    getElem?_flatMap_of_length (fun x => bytesOfWord_length _ _ x) hp, List.getElem?_take_of_lt hn,
    List.getElem?_eq_getElem hlt, List.getD_eq_getElem _ _ hlt, Option.bind_some, List.getD_eq_getElem?_getD]

end Digest

/-- Settles O44: the bytes are those of the digest of the words `DIG[i]` holds. -/
theorem finalSerialisesDigest : Obligations.FinalSerialisesDigest := by
  intro a k i s h hform hd hl
  refine ⟨digestOfState a h, final_of_words hform hd hl, digestOfState_length hl, fun n p hn hp => ?_⟩
  rw [digestOfState_getD hl hn hp, toNat_byteOfWord]

/-- Settles O50: completion writes `ND * w / 8`, which is this for the six algorithms. -/
theorem digestLengths : Obligations.DigestLengths := by
  intro a s
  refine ⟨rfl, ?_⟩
  rw [State.complete_outLen]
  cases a <;> rfl

end Sys2Proof.Machine

/-! PROOF. The errors of the core: the one a failing `HASHPAR` reports (60_exceptions rules R202 to R207), and the internal
one that a buffer of the wrong size raises (rules R204, R207). -/

namespace Sys2Proof.Machine

/-! ### An accept that fails -/

section AcceptFails

variable {op : Op} {a : Alg} {k : LaneCount} {s : State}

/-- Accept of a command whose form is illegal rejects it as its illegal word is rejected (R79; log entry 17). -/
theorem acceptCommand_of_illegal (hb : s.busy = false) (hform : formOk op a k 0 = false) :
    acceptCommand op a k s = .next (rejectCommand s) := by
  simp only [acceptCommand, hb, hform, Bool.false_eq_true, not_false_eq_true, if_true, if_false]

/-- Accept of a legal command that fails its capability or platform check latches it and raises that error (R171). -/
theorem acceptCommand_of_precondition {e : CoreError} (hb : s.busy = false) (hform : formOk op a k 0 = true)
    (hpre : precondition op a k s.params = some e) :
    acceptCommand op a k s = .next (State.raise e { s.beginCommand with ctx := some ⟨a, k⟩ }) := by
  simp only [acceptCommand, hb, hform, hpre, Bool.false_eq_true, not_true_eq_false, if_false]

/-- A length too large is what the check finds if the lanes before it have descriptors, whatever stands after it (R171; log
entry 18). -/
theorem checkDescriptors_tooLong_of_written {i : Lane} {d : BitVec 64} (hd : s.srcDesc[i] = some d)
    (hlong : descTooLong d = true) (post : List Lane) {pre : List Lane} (hpre : ∀ j ∈ pre, s.srcDesc[j] ≠ none) :
    checkDescriptors s (pre ++ i :: post) = .tooLong := by
  induction pre with
  | nil => simp only [List.nil_append, checkDescriptors, hd, hlong, if_true]
  | cons j pre ih =>
    obtain ⟨d', hd'⟩ := Option.ne_none_iff_exists'.1 (hpre j (by simp))
    simp only [List.cons_append, checkDescriptors, hd', ih fun j hj => hpre j (by simp [hj]), ite_self]

/-- Accept of a legal command whose other checks pass fails at a length too large, if the lower lanes have descriptors
(R171, R205). -/
theorem acceptCommand_of_tooLong {i : Lane} {d : BitVec 64} (hb : s.busy = false) (hform : formOk op a k 0 = true)
    (hpre : precondition op a k s.params = none) (hik : i.val < k.lanes)
    (hlow : ∀ j : Lane, j.val < i.val → s.srcDesc[j] ≠ none) (hd : s.srcDesc[i] = some d) (hbad : ¬ descriptorOk d) :
    acceptCommand op a k s = .next (State.raise .lengthTooLarge { s.beginCommand with ctx := some ⟨a, k⟩ }) := by
  obtain ⟨pre, post, hsplit, hbelow⟩ := laneList_split hik
  have hcheck : checkDescriptors { s.beginCommand with ctx := some ⟨a, k⟩ } k.laneList = .tooLong := by
    rw [hsplit]
    exact checkDescriptors_tooLong_of_written (s := { s.beginCommand with ctx := some ⟨a, k⟩ }) hd
      (descTooLong_of_not_descriptorOk hbad) post fun j hj => hlow j (hbelow j hj)
  simp only [acceptCommand, hb, hform, hpre, hcheck, Bool.false_eq_true, not_true_eq_false, if_false]

end AcceptFails

/-! ### The checks of `HASHPAR` -/

section HashparChecks

variable {a : Alg} {k : LaneCount} {p : Params}

/-- A lane count of another width than 128 or 256 bits is illegal (R77). -/
theorem formOk_hashpar_of_other_width (h128 : vectorBits a k ≠ 128) (h256 : vectorBits a k ≠ 256) :
    formOk .hashpar a k 0 = false := by
  simp [formOk, laneCountOk, laneCountLegal, h128, h256]

/-- The 128-bit capability is missing (R202). -/
theorem precondition_hashpar_of_no_cap128 (hbits : vectorBits a k = 128) (hcap : p.cap128 = false) :
    precondition .hashpar a k p = some .hasWideVector128 := by
  simp [precondition, parallelCheck, hbits, hcap]

/-- The 256-bit capability is missing (R202). -/
theorem precondition_hashpar_of_no_cap256 (hbits : vectorBits a k = 256) (hcap : p.cap256 = false) :
    precondition .hashpar a k p = some .hasWideVector256 := by
  simp [precondition, parallelCheck, hbits, hcap]

/-- The host is big-endian, which is looked at after the capability (R203, R206). -/
theorem precondition_hashpar_of_big_endian
    (hcap : vectorBits a k = 128 ∧ p.cap128 = true ∨ vectorBits a k = 256 ∧ p.cap256 = true) (hle : p.hostLe = false) :
    precondition .hashpar a k p = some .bigEndianHost := by
  rcases hcap with ⟨hbits, hcap⟩ | ⟨hbits, hcap⟩ <;> simp [precondition, parallelCheck, hbits, hcap, hle]

end HashparChecks

/-- Settles O20: each clause is one way an accept fails, in the order of R206. -/
theorem errorPriority : Obligations.ErrorPriority := by
  intro a k s hb failed
  rw [exec_hashpar, acceptHashpar]
  refine ⟨fun h128 h256 => ?illegal, fun hbits hcap => ?cap128, fun hbits hcap => ?cap256, fun hcap hle => ?bigEndian,
    fun hcap hle i d hik hlow hd hbad => ?tooLong⟩
  case illegal =>
    rw [acceptCommand_of_illegal hb (formOk_hashpar_of_other_width h128 h256), rejectCommand_eq]
  case cap128 =>
    rw [acceptCommand_of_precondition hb (formOk_hashpar_of_width (.inl hbits))
      (precondition_hashpar_of_no_cap128 hbits hcap)]
    rfl
  case cap256 =>
    rw [acceptCommand_of_precondition hb (formOk_hashpar_of_width (.inr hbits))
      (precondition_hashpar_of_no_cap256 hbits hcap)]
    rfl
  case bigEndian =>
    rw [acceptCommand_of_precondition hb (formOk_hashpar_of_width (hcap.imp And.left And.left))
      (precondition_hashpar_of_big_endian hcap hle)]
    rfl
  case tooLong =>
    rw [acceptCommand_of_tooLong hb (formOk_hashpar_of_width (hcap.imp And.left And.left))
      (precondition_hashpar_eq_none hcap hle) hik hlow hd hbad]
    rfl

/-! ### Buffers of the wrong size -/

/-- A read of words finds none in an array that is not `n` words of the width. -/
theorem wordsOf_eq_none {w : Width} {n : Nat} {x : WordArray}
    (h : ∀ ws : List (Word w), ws.length = n → x ≠ WordArray.ofWords w ws) : wordsOf w n x = none :=
  Option.eq_none_iff_forall_ne_some.2 fun ws hws =>
    have ⟨hx, hlen⟩ := wordsOf_eq_some.1 hws
    h ws hlen hx

/-- A read of vectors finds none in an array that is not `n` vectors of `K` words of the width. -/
theorem vectorsOf_eq_none {w : Width} {n K : Nat} {x : VectorArray}
    (h : ∀ vs : List (List (Word w)), vs.length = n → (∀ v ∈ vs, v.length = K) → x ≠ VectorArray.ofVectors w vs) :
    vectorsOf w n K x = none :=
  Option.eq_none_iff_forall_ne_some.2 fun vs hvs =>
    have ⟨hx, hlen, hK⟩ := vectorsOf_eq_some.1 hvs
    h vs hlen hK hx

/-- Blocks that all have a value are read, whatever their lengths (log entry 8). -/
theorem readBlocks_of_written {s : State} {l : List Lane} (h : ∀ j ∈ l, s.blk[j] ≠ none) :
    ∃ bs, readBlocks s l = .ok bs := by
  induction l with
  | nil => exact ⟨[], rfl⟩
  | cons j l ih =>
    obtain ⟨bs, hbs⟩ := ih fun i hi => h i (by simp [hi])
    obtain ⟨b, hb⟩ := Option.ne_none_iff_exists'.1 (h j (by simp))
    exact ⟨b :: bs, by simp only [readBlocks, hb, hbs]⟩

/-- The block of a lane of the call is among the blocks read. -/
theorem mem_of_readBlocks {k : LaneCount} {s : State} {i : Lane} {b : List Byte} {bs : List (List Byte)}
    (hbs : readBlocks s k.laneList = .ok bs) (hik : i.val < k.lanes) (hb : s.blk[i] = some b) : b ∈ bs :=
  List.mem_of_getElem? (i := i.val) (by rw [readBlocks_getElem? hbs, laneList_getElem? hik]; exact hb)

/-- Settles O46, operation by operation: what each reads is not of the size it asks for. -/
theorem wrongSizesRaise : Obligations.WrongSizesRaise := by
  intro a k i s failed
  refine ⟨fun b hform hb hlen => ?sched, fun b hform hik hb hlen hall => ?pack, fun x hform hd hw hx => ?comp,
    fun x hform hl hlw hx => ?compl⟩
  case sched =>
    rw [exec_sched, buildSchedule, microOperation_of_ok hform, hb, withValue_some, if_neg hlen]
    rfl
  case pack =>
    obtain ⟨bs, hbs⟩ := readBlocks_of_written fun j hj => hall j (mem_laneList.1 hj)
    have hwrong : ¬ ∀ b ∈ bs, b.length = a.blockBytes := fun h => hlen (h b (mem_of_readBlocks hbs hik hb))
    rw [exec_pack, packLanes, microOperation_of_ok hform, hbs]
    exact if_neg hwrong
  case comp =>
    rw [exec_comp, compressScalar, microOperation_of_ok hform]
    obtain ⟨h, hread⟩ := withDigest_of_ready hd _
    rw [hread, hw, withValue_some, wordsOf_eq_none hx]
    rfl
  case compl =>
    rw [exec_compl, compressLanes, microOperation_of_ok hform]
    obtain ⟨ls, hread⟩ := withLaneState_of_ready hl _
    rw [hread, hlw, withValue_some, vectorsOf_eq_none hx]
    rfl

end Sys2Proof.Machine
